-- ==== Sys2Proof/Word.lean ====
section
/-! DEFINITION. The widths of the spec's values (00_scope.md R6). -/

namespace Sys2Proof

/-- The level of one line, or a one-bit register: `true` is 1, logic high (R6). -/
abbrev Level := Bool
/-- A byte: the width of one exchange (R43). -/
abbrev Byte := BitVec 8
/-- The control nibble C3..C0 (R4, R61). -/
abbrev Nibble := BitVec 4
/-- A voltage code after masking (R64, R100). -/
abbrev Code12 := BitVec 12
/-- The Command Frame (R60). -/
abbrev Frame := BitVec 16
/-- The host command word (R62). -/
abbrev HostWord := BitVec 20
/-- The T-op micro-command (R67). -/
abbrev TWord := BitVec 10

end Sys2Proof
end

