-- ==== Sys2Proof/Config.lean ====
section
/-! DEFINITION. The parameters of 00_scope.md R4, the test-vector defaults of 95_test_vectors.md, and the one free value of the model (the input line, R50). -/

namespace Sys2Proof

/-- The eight parameters of R4. None is writable at run time; State carries them unchanged (log 1). -/
structure Config where
  /-- `CTRL[3:0]`: the control nibble, copied into frame bits 15 to 12 and never interpreted (R5, R61). -/
  ctrl : Nibble
  /-- `T_HALF`: ticks of one half period of SCK. -/
  tHalf : Nat
  /-- `T_CSS`: ticks from CS_n falling to the first exchange. -/
  tCss : Nat
  /-- `T_CSH`: ticks of Chip-Select hold. -/
  tCsh : Nat
  /-- `T_CSLE`: ticks from CS_n rising to LE_n falling. -/
  tCsle : Nat
  /-- `T_LEW`: ticks LE_n stays low. -/
  tLew : Nat
  /-- `T_LEH`: ticks LE_n is held high after a forced deassert (R104). -/
  tLeh : Nat
  /-- `DLY_W`: width in bits of the dwell counter. -/
  dlyW : Nat
  deriving DecidableEq, Repr

/-- The test-vector defaults of 95_test_vectors.md (D13, D18); DESIGN CHOICE: the values are OPEN in the spec, and
`DLY_W`, which the vectors do not name, is the least width that R5 allows with them (log 1). -/
def Config.vectorDefaults : Config :=
  { ctrl := 0b0011#4, tHalf := 1, tCss := 1, tCsh := 1, tCsle := 1, tLew := 2, tLeh := 1, dlyW := 1 }

/-- The free draws of the input line (R50, U11): the level of `miso` in a cycle whose inputs no script fixes.
Nothing constrains it (log 3). -/
opaque Config.freeMiso : Nat → Level

end Sys2Proof
end

