-- ==== Sys2Proof/Syntax.lean ====
section
/-! DEFINITION. The instructions: one constructor per row of spec/opcode_table.json, the three formats their words have, and the host's assembly notation (30_encoding.md). -/

namespace Sys2Proof

/-- One constructor per row of spec/opcode_table.json. Ignored bits are no part of an instruction (R66, R70). -/
inductive Instr where
  /-- `NOP` (R111). -/
  | nop
  /-- `INIT` = `initialize()` (R110). -/
  | init
  /-- `WRITEV` with the code already masked to 12 bits, as R70 decodes it (R109). -/
  | writev (code : Code12)
  /-- Reserved opcode 0x3 (R112). -/
  | reserved3
  /-- Reserved opcodes 0x4 to 0x7; `low` is OP[1:0] (R112). -/
  | reserved47 (low : BitVec 2)
  /-- Reserved opcodes 0x8 to 0xF; `low` is OP[2:0] (R112). -/
  | reserved8F (low : BitVec 3)
  /-- Micro-command `T_INIT` (R80). -/
  | tInit
  /-- Micro-command `T_SEL` = `assertSelect()` (R84). -/
  | tSel
  /-- Micro-command `T_DESEL` = `deassertSelect()` (R85). -/
  | tDesel
  /-- Micro-command `T_XCHG` = `exchangeByte(byte)` (R81). -/
  | tXchg (byte : Byte)
  /-- The Command Frame on the wire, as the DAC takes it (R60, R136; log 6). -/
  | frame (ctrl : Nibble) (code : Code12)
  deriving DecidableEq, Repr

/-- A word of one of the three fixed-length formats (R68): each reaches its own decoder and no other. -/
inductive CodeWord where
  /-- HOST20: a word on the command port (R62). -/
  | host (w : HostWord)
  /-- TOP10: a micro-command inside the block (R67). -/
  | top (w : TWord)
  /-- WIRE16: sixteen bits clocked out in one Chip-Select-low interval (R60). -/
  | wire (w : Frame)
  deriving DecidableEq, Repr

/-- One line of a host program in the assembly notation of R69. -/
inductive AsmLine where
  /-- `NOP`. -/
  | nop
  /-- `INIT`. -/
  | init
  /-- `WRITEV imm16`. -/
  | writev (imm : BitVec 16)
  /-- The pseudo-instruction `WRITEV12 imm`, rejected for imm above 4095. -/
  | writev12 (imm : Nat)
  /-- `.word w20`. -/
  | word (w : HostWord)
  deriving DecidableEq, Repr

/-- The row of spec/opcode_table.json an instruction belongs to. -/
def Instr.mnemonic : Instr → String
  | .nop => "NOP"
  | .init => "INIT"
  | .writev _ => "WRITEV"
  | .reserved3 => "RESERVED_3"
  | .reserved47 _ => "RESERVED_4_7"
  | .reserved8F _ => "RESERVED_8_F"
  | .tInit => "T_INIT"
  | .tSel => "T_SEL"
  | .tDesel => "T_DESEL"
  | .tXchg _ => "T_XCHG"
  | .frame _ _ => "FRAME"

end Sys2Proof
end

