-- ==== Sys2Proof/WellFormed.lean ====
section
/-! DEFINITION. Well-formed instructions and well-formed configurations (00_scope.md R5, 30_encoding.md R60, R61). -/

namespace Sys2Proof

/-- A frame's write-enable bit C3 is 0 in every deployment (R5, R60, R61); every other field takes any value. -/
def Instr.wf : Instr → Bool
  | .frame ctrl _ => !ctrl.msb
  | .nop | .init | .writev _ | .reserved3 | .reserved47 _ | .reserved8F _
  | .tInit | .tSel | .tDesel | .tXchg _ => true

/-- One dwell is well formed when it is at least one tick and fits the dwell counter (R5). -/
def Config.dwellOk (c : Config) (n : Nat) : Bool := decide (1 ≤ n) && decide (n ≤ 2 ^ c.dlyW)

/-- Configuration well-formedness (R5, with the bound `DLY_W` ≥ 1 of R4). -/
def Config.wf (c : Config) : Bool :=
  !c.ctrl.msb && decide (1 ≤ c.dlyW) && c.dwellOk c.tHalf && c.dwellOk c.tCss && c.dwellOk c.tCsh
    && c.dwellOk c.tCsle && c.dwellOk c.tLew && c.dwellOk c.tLeh

end Sys2Proof
end

