-- ==== Sys2Proof/Decode.lean ====
section
/-! DEFINITION. Decoders of the three formats, each total, with rejections by name; the encoder; the assembler (30_encoding.md R60 to R70). -/

namespace Sys2Proof

/-- Why a word is no instruction. -/
inductive DecodeError where
  /-- A wire word with bit 15 (C3, write-enable) set: no deployment sends it (R5, R60). -/
  | writeEnableSet
  deriving DecidableEq, Repr

/-- `OP`: bits 19 to 16 of a host word (R62). -/
def opField (w : HostWord) : BitVec 4 := w.extractLsb' 16 4

/-- `ARG`: bits 15 to 0 of a host word (R62). -/
def argField (w : HostWord) : BitVec 16 := w.extractLsb' 0 16

/-- The masking of R64 and R100: `code12 = ARG[11:0]`; the higher bits are discarded silently
(target 2 of R137). -/
def maskCode (arg : BitVec 16) : Code12 := arg.extractLsb' 0 12

/-- Host words (R63, R70): total; the reserved opcodes are told apart as the table's three rows tell them. -/
def decodeHost (w : HostWord) : Instr :=
  if opField w = 0x0#4 then .nop
  else if opField w = 0x1#4 then .init
  else if opField w = 0x2#4 then .writev (maskCode (argField w))
  else if opField w = 0x3#4 then .reserved3
  else if (opField w).msb = false then .reserved47 ((opField w).extractLsb' 0 2)
  else .reserved8F ((opField w).extractLsb' 0 3)

/-- Micro-commands (R67): total, all four values of `TOP` are defined. -/
def decodeTop (w : TWord) : Instr :=
  if w.extractLsb' 8 2 = 0b00#2 then .tInit
  else if w.extractLsb' 8 2 = 0b01#2 then .tSel
  else if w.extractLsb' 8 2 = 0b10#2 then .tDesel
  else .tXchg (w.extractLsb' 0 8)

/-- The Command Frame (R60): C3..C0 then D11..D0; a word with C3 = 1 is rejected by name (R5; log 16). -/
def decodeWire (w : Frame) : Except DecodeError Instr :=
  if w.msb then .error .writeEnableSet
  else .ok (.frame (w.extractLsb' 12 4) (w.extractLsb' 0 12))

/-- The decoder of a word of any of the three formats. -/
def decode : CodeWord → Except DecodeError Instr
  | .host w => .ok (decodeHost w)
  | .top w => .ok (decodeTop w)
  | .wire w => decodeWire w

/-- A host word from its two fields (R62). -/
def hostWord (op : BitVec 4) (arg : BitVec 16) : HostWord := op ++ arg

/-- A micro-command from its two fields (R67). -/
def topWord (top : BitVec 2) (byte : Byte) : TWord := top ++ byte

/-- The canonical encoder: ignored bits are written 0 (R66). -/
def encode : Instr → CodeWord
  | .nop => .host (hostWord 0x0#4 0#16)
  | .init => .host (hostWord 0x1#4 0#16)
  | .writev code => .host (hostWord 0x2#4 (0#4 ++ code))
  | .reserved3 => .host (hostWord 0x3#4 0#16)
  | .reserved47 low => .host (hostWord (0b01#2 ++ low) 0#16)
  | .reserved8F low => .host (hostWord (0b1#1 ++ low) 0#16)
  | .tInit => .top (topWord 0b00#2 0#8)
  | .tSel => .top (topWord 0b01#2 0#8)
  | .tDesel => .top (topWord 0b10#2 0#8)
  | .tXchg byte => .top (topWord 0b11#2 byte)
  | .frame ctrl code => .wire (ctrl ++ code)

/-- The mask and match columns of opcode_table.json for the HOST20 rows, with their mnemonics (R70). -/
def hostRows : List (String × HostWord × HostWord) :=
  [("NOP", 0xF0000#20, 0x00000#20), ("INIT", 0xF0000#20, 0x10000#20), ("WRITEV", 0xF0000#20, 0x20000#20),
   ("RESERVED_3", 0xF0000#20, 0x30000#20), ("RESERVED_4_7", 0xC0000#20, 0x40000#20),
   ("RESERVED_8_F", 0x80000#20, 0x80000#20)]

/-- The mask and match columns of opcode_table.json for the TOP10 rows, with their mnemonics (R67). -/
def topRows : List (String × TWord × TWord) :=
  [("T_INIT", 0x300#10, 0x000#10), ("T_SEL", 0x300#10, 0x100#10), ("T_DESEL", 0x300#10, 0x200#10),
   ("T_XCHG", 0x300#10, 0x300#10)]

/-- The mask and match columns of opcode_table.json for the WIRE16 row, with its mnemonic: C3 is 0 (R60, R5). -/
def wireRows : List (String × Frame × Frame) := [("FRAME", 0x8000#16, 0x0000#16)]

/-- The mnemonics of the rows a word matches. -/
def matchingRows {n : Nat} (rows : List (String × BitVec n × BitVec n)) (w : BitVec n) : List String :=
  (rows.filter fun row => w &&& row.2.1 == row.2.2).map Prod.fst

/-- One line of a host program assembled to its command word (R69); `none` where the assembler rejects it. -/
def assemble : AsmLine → Option HostWord
  | .nop => some (hostWord 0x0#4 0#16)
  | .init => some (hostWord 0x1#4 0#16)
  | .writev imm => some (hostWord 0x2#4 imm)
  | .writev12 imm => if imm ≤ 4095 then some (hostWord 0x2#4 (BitVec.ofNat 16 imm)) else none
  | .word w => some w

/-- A whole host program assembled, line by line (R69). -/
def assembleAll : List AsmLine → Option (List HostWord)
  | [] => some []
  | line :: rest =>
    match assemble line, assembleAll rest with
    | some w, some ws => some (w :: ws)
    | _, _ => none

/-- Which format's word a table row's bits are. Host words have 20 bits (three bytes), micro-commands 10 and frames 16
(two bytes both); a two-byte word below 2^10 is read as a micro-command, any other as a frame (log 7). -/
def tableWord (nbits w : Nat) : Option CodeWord :=
  if nbits = 20 ∨ nbits = 24 then
    if w < 2 ^ 20 then some (.host (BitVec.ofNat 20 w)) else none
  else if nbits = 10 ∨ (nbits = 16 ∧ w < 2 ^ 10) then
    if w < 2 ^ 10 then some (.top (BitVec.ofNat 10 w)) else none
  else if nbits = 16 then
    if w < 2 ^ 16 then some (.wire (BitVec.ofNat 16 w)) else none
  else none

/-- The instruction the decoder reads from a row's bits, numbered as spec/opcode_table.json numbers them. -/
def decodeTableWord (nbits w : Nat) : Option Instr :=
  match tableWord nbits w with
  | none => none
  | some c =>
    match decode c with
    | .ok i => some i
    | .error _ => none

end Sys2Proof
end

