-- ==== Sys2Proof/Machine/State.lean ====
section
/-! DEFINITION. The state of the block (the twelve registers of 10_state.md R10), of the host agent (R20, R71) and of the observer (R136); the outcomes' reasons; the machine after reset (R24). -/

namespace Sys2Proof.Machine

/-- The phase register's ten values (R17). -/
inductive Phase where
  | idle | leNorm | csSetup | shLow | shHigh | xdone | csHold | csLeGap | lePulse | hung
  deriving DecidableEq, Repr

/-- The inputs of one cycle (R20, R120). -/
structure Inputs where
  /-- `rst`: synchronous reset, highest priority (R170). -/
  rst : Level
  /-- `cmd_valid`: the host presents a command word. -/
  cmdValid : Level
  /-- `cmd`: the command word, read only when `cmd_valid` and `ready` are 1 (R49). -/
  cmd : HostWord
  /-- `miso`: the input line, read only at the ticks that raise SCK (R50). -/
  miso : Level
  deriving DecidableEq, Repr

/-- What the host agent will still do (R9, R185): first the scripted cycles, one a tick, then the commands of its
program as the eager host of R71, then nothing (log 2). -/
structure HostAgent where
  /-- The inputs of the coming cycles, the next cycle's first. -/
  script : List Inputs
  /-- The commands the eager host has not presented yet, the next one first. -/
  program : List HostWord
  deriving DecidableEq, Repr

/-- What the observer says a frame or an output was (R136). -/
inductive Seen where
  /-- The 16 bits of a whole frame, the first one in bit 15. -/
  | word (w : Frame)
  /-- A partial frame, or anything after one (R136, U1). -/
  | undefined
  deriving DecidableEq, Repr

/-- The DAC as an observer of the pins (R136): what it has been shown since it was last restarted. -/
structure Dac where
  /-- The bits sampled in the present Chip-Select-low interval, the first one first. -/
  bits : List Level
  /-- One entry per Chip-Select-low interval that has ended, the oldest first. -/
  frames : List Seen
  /-- The command taken last, not yet at the output; `none` before the first. -/
  pending : Option Seen
  /-- The command at the output; `none` before the first latch pulse. -/
  latched : Option Seen
  /-- A partial frame has been seen: every later answer is undefined (R136; log 5). -/
  tainted : Bool
  deriving DecidableEq, Repr

/-- The observer just restarted (R136). -/
def Dac.restarted : Dac := { bits := [], frames := [], pending := none, latched := none, tainted := false }

/-- The whole state. The twelve fields from `en` to `tc` are the block's registers, each of the width R10 gives it; `DLY`
is as wide as the parameter `DLY_W` says. The others belong to the other agents or to the model. Memory: the block has
none (R40). -/
structure State where
  /-- The build-time parameters (R4); no step changes them (log 1). -/
  cfg : Config
  /-- `EN`: the Transport is enabled and the three bus pads are driven (R11). -/
  en : Level
  /-- `SCK`: level of the Clock line (R12). -/
  sck : Level
  /-- `MOSI`: level of the Data-Out line (R12). -/
  mosi : Level
  /-- `CSN`: level of the Chip-Select line, 0 = asserted (R12). -/
  csn : Level
  /-- `LEN`: level of the Latch-Enable line, 0 = asserted (R12). -/
  len : Level
  /-- `SR`: the shift register (R13). -/
  sr : Byte
  /-- `FR`: the Command Frame of the call in progress (R14). -/
  fr : Frame
  /-- `BITCNT`: bits of the byte whose clock pulse has not ended (R15). -/
  bitcnt : BitVec 4
  /-- `BYTEIDX`: which byte is being exchanged, 0 = high, 1 = low (R16). -/
  byteidx : Level
  /-- `PH`: the phase (R17). -/
  ph : Phase
  /-- `DLY`: ticks left in the dwell, `DLY_W` bits (R10, R18; log 9). -/
  dly : BitVec cfg.dlyW
  /-- `TC`: the transfer-complete flag (R19). -/
  tc : Level
  /-- The host agent (R9; log 2). -/
  host : HostAgent
  /-- The model's own counter that numbers the free draws of `miso` (log 3). -/
  draw : Nat
  /-- The observer (R136; log 5). -/
  dac : Dac
  deriving DecidableEq, Repr

/-- The block raises no exception and has no error output (R150), so no step ends in a fault: nobody raises one. -/
inductive Fault where
  deriving DecidableEq, Repr

/-- Why the model does not run a step. -/
inductive Refusal where
  /-- Raised by a dispatch arm that has no meaning yet; safe. No arm raises it in this model. -/
  | notModelled (mnemonic : String)
  /-- Raised by every tick of a machine whose configuration is ill formed: R5 says a model must refuse it; safe (log 15). -/
  | illFormedConfig
  deriving DecidableEq, Repr

/-- The machine right after reset: the registers as R24 tabulates them, the observer restarted, a host that has
nothing to present (log 2), the test-vector defaults as its configuration (log 1), no draw made (log 3). Power-on before
the first reset is not modelled as a start state (R172; log 4). -/
def State.reset : State :=
  { cfg := Config.vectorDefaults,
    en := false, sck := false, mosi := false, csn := true, len := true, sr := 0x00#8, fr := 0x0000#16,
    bitcnt := 0#4, byteidx := false, ph := .idle, dly := 0#_, tc := false,
    host := { script := [], program := [] }, draw := 0, dac := Dac.restarted }

end Sys2Proof.Machine
end

