-- ==== Sys2Proof/Machine/Operands.lean ====
section
/-! DEFINITION. Operand forms: the encoder's bytes and frame (R100 to R103), the frame's two bytes (R41), the byte index of an exchange (R124), bits of the wire (R136). -/

namespace Sys2Proof.Machine

/-- The high byte `{CTRL[3:0], code12[11:8]}` (R101). -/
def composeHigh (ctrl : Nibble) (code : Code12) : Byte := ctrl ++ code.extractLsb' 8 4

/-- The low byte `code12[7:0]` (R102). -/
def composeLow (code : Code12) : Byte := code.extractLsb' 0 8

/-- The Command Frame `{hi, lo}` (R103). -/
def composeFrame (ctrl : Nibble) (code : Code12) : Frame := composeHigh ctrl code ++ composeLow code

/-- The byte of the frame sent first, `FR[15:8]` (R41). -/
def highByte (f : Frame) : Byte := f.extractLsb' 8 8

/-- The byte of the frame sent second, `FR[7:0]` (R41). -/
def lowByte (f : Frame) : Byte := f.extractLsb' 0 8

/-- Which frame byte an exchange is: 1 when it is issued from `XDONE`, 0 when it is issued from `CS_SETUP` (R89, R124,
R127). Elsewhere no exchange is ever issued, and 0 is taken (DEDUCED, log 12). -/
def exchangeIndex (ph : Phase) : Level := ph == .xdone

/-- One shift of the shift register: bit 7 leaves, the sampled level enters at bit 0 (R13, R82). -/
def shiftIn (sr : Byte) (m : Level) : Byte := sr.extractLsb' 0 7 ++ BitVec.ofBool m

/-- Sixteen bits of the wire as a number, the first one in bit 15 (R136). -/
def wireWord (bits : List Level) : Frame := bits.foldl (fun acc b => (acc <<< 1) ||| (BitVec.ofBool b).setWidth 16) 0#16

/-- A frame's bits in the order of the clock pulses, bit 15 first (R41). -/
def wireBits (f : Frame) : List Level := (List.range 16).map fun k => f.getLsbD (15 - k)

end Sys2Proof.Machine
end

