-- ==== Sys2Proof/Machine/Flags.lean ====
section
/-! DEFINITION. The flags TC and EN and the derived signal `ready` (R11, R19, R21, R22, R23). -/

namespace Sys2Proof.Machine

/-- `TC <- 1`: at the end of the eighth clock pulse (R19, R126). -/
def State.setTc (s : State) : State := { s with tc := true }

/-- `TC <- 0`: at the start of an exchange (R19, R124). -/
def State.clearTc (s : State) : State := { s with tc := false }

/-- Whether the falling edge now due ends the eighth clock pulse of the byte (R126). -/
def State.lastPulse (s : State) : Bool := s.bitcnt == 1#4

/-- `ready`: 1 exactly in `IDLE` (R17, R21). -/
def State.ready (s : State) : Level := s.ph == .idle

end Sys2Proof.Machine
end

