-- ==== Sys2Proof/Machine/Ops.lean ====
section
/-! DEFINITION. The named operations over the registers: sequencer moves (R132), line levels (R12), the Transport's register writes (R80 to R85, R124 to R126), the hang (R154) and the reset that alone leaves it (R155, R170). The block has no exception to take (R150). -/

namespace Sys2Proof.Machine

/-- Continue with `f` from a next state; a fault or a refusal stays what it is. -/
def onNext (o : Host.Outcome State Fault Refusal) (f : State → State) : Host.Outcome State Fault Refusal :=
  match o with
  | .next t => .next (f t)
  | .fault r => .fault r
  | .refused r => .refused r

/-- `PH <- p` with no dwell: into `IDLE`, `XDONE` or `HUNG`, which are not timed (R132). -/
def State.goto (s : State) (p : Phase) : State := { s with ph := p }

/-- `enter(p, n)`: `PH <- p; DLY <- n - 1` (R132), in the `DLY_W` bits of the register (R18; log 9). -/
def State.enter (s : State) (p : Phase) (n : Nat) : State := { s with ph := p, dly := BitVec.ofNat _ (n - 1) }

/-- One tick of a dwell that is not over: `DLY <- DLY - 1` (R132). -/
def State.countDown (s : State) : State := { s with dly := s.dly - 1#_ }

/-- `initialize()`: `EN <- 1; SCK <- 0; CSN <- 1` (R80). -/
def State.initBus (s : State) : State := { s with en := true, sck := false, csn := true }

/-- `assertSelect()`: `CSN <- 0` (R84). -/
def State.assertSelect (s : State) : State := { s with csn := false }

/-- `deassertSelect()`: `CSN <- 1` (R85). -/
def State.deassertSelect (s : State) : State := { s with csn := true }

/-- `LEN <- 0` (R106). -/
def State.assertLatch (s : State) : State := { s with len := false }

/-- `LEN <- 1` (R104, R106). -/
def State.deassertLatch (s : State) : State := { s with len := true }

/-- `FR <- f` (R103). -/
def State.loadFrame (s : State) (f : Frame) : State := { s with fr := f }

/-- The shift register, bit counter and data line at the start of an exchange: `SR <- b; BITCNT <- 8; MOSI <- b[7]` (R124). -/
def State.loadByte (s : State) (b : Byte) : State := { s with sr := b, bitcnt := 8#4, mosi := b.msb }

/-- `BYTEIDX <- idx` (R124). -/
def State.setByteIdx (s : State) (idx : Level) : State := { s with byteidx := idx }

/-- The hang: nothing but `PH <- HUNG` (R83, R124, R154). -/
def State.hang (s : State) : State := s.goto .hung

/-- `start_xchg(b, idx)` (R124): with the Transport disabled the block hangs (R83). -/
def State.startXchg (s : State) (b : Byte) (idx : Level) : State :=
  if s.en then ((s.loadByte b).clearTc.setByteIdx idx).enter .shLow s.cfg.tHalf else s.hang

/-- The rising edge: `SCK <- 1` and the sampled level is shifted in (R125). -/
def State.riseClock (s : State) (m : Level) : State := { s with sck := true, sr := shiftIn s.sr m }

/-- The falling edge: `SCK <- 0; BITCNT <- BITCNT - 1`, in four bits (R126). -/
def State.fallClock (s : State) : State := { s with sck := false, bitcnt := s.bitcnt - 1#4 }

/-- The next bit onto the data line: `MOSI <- SR[7]`, the already shifted value (R126). -/
def State.driveNextBit (s : State) : State := { s with mosi := s.sr.msb }

/-- Every register to its reset value (R24, R170); the parameters, the host and the observer are no registers. -/
def State.resetRegs (s : State) : State :=
  { s with en := false, sck := false, mosi := false, csn := true, len := true, sr := 0x00#8, fr := 0x0000#16,
           bitcnt := 0#4, byteidx := false, ph := .idle, dly := 0#_, tc := false }

end Sys2Proof.Machine
end

