-- ==== Sys2Proof/Machine/HostOps.lean ====
section
/-! DEFINITION. The meanings of the HOST20 rows at the tick that accepts them (R109 to R112, R121). Whether a word is accepted at all is the phase rule of `IDLE` (Machine/Phases.lean). -/

namespace Sys2Proof.Machine

/-- The common effect of `NOP` and the reserved opcodes: no register changes (R65, R111, R112). -/
def State.noEffect (s : State) : State := s

/-- `NOP` (R111). -/
def execNop (s : State) : Host.Outcome State Fault Refusal := .next s.noEffect

/-- `INIT`, completed at the accept tick; `PH` stays `IDLE` (R110, R80). -/
def execInit (s : State) : Host.Outcome State Fault Refusal := .next s.initBus

/-- The accept tick of `WRITEV` (R121): the frame is loaded (R103), Latch-Enable is checked and normalised if it is
found asserted (R104), else Chip-Select is asserted (R105). The rest of the call is the phases' (R122 to R130; log 14). -/
def execWritev (code : Code12) (s : State) : Host.Outcome State Fault Refusal :=
  if s.len then .next (((s.loadFrame (composeFrame s.cfg.ctrl code)).assertSelect).enter .csSetup s.cfg.tCss)
  else .next (((s.loadFrame (composeFrame s.cfg.ctrl code)).deassertLatch).enter .leNorm s.cfg.tLeh)

/-- Reserved opcode 0x3: as `NOP` (R112; log 8). -/
def execReserved3 (s : State) : Host.Outcome State Fault Refusal := .next s.noEffect

/-- Reserved opcodes 0x4 to 0x7: as `NOP` (R112; log 8). -/
def execReserved47 (_low : BitVec 2) (s : State) : Host.Outcome State Fault Refusal := .next s.noEffect

/-- Reserved opcodes 0x8 to 0xF: as `NOP` (R112; log 8). -/
def execReserved8F (_low : BitVec 3) (s : State) : Host.Outcome State Fault Refusal := .next s.noEffect

end Sys2Proof.Machine
end

