-- ==== Sys2Proof/Machine/Transport.lean ====
section
/-! DEFINITION. The meanings of the TOP10 rows: the Bus Transport's four operations at the tick that issues them (R80 to R85, R124). -/

namespace Sys2Proof.Machine

/-- `T_INIT` = `initialize()` (R80). -/
def execTInit (s : State) : Host.Outcome State Fault Refusal := .next s.initBus

/-- `T_SEL` = `assertSelect()` (R84). -/
def execTSel (s : State) : Host.Outcome State Fault Refusal := .next s.assertSelect

/-- `T_DESEL` = `deassertSelect()` (R85). -/
def execTDesel (s : State) : Host.Outcome State Fault Refusal := .next s.deassertSelect

/-- `T_XCHG` = the start of `exchangeByte(byte)` (R81, R124), or the hang if the Transport is disabled (R83). The
clock pulses that follow are the phases `SH_LOW` and `SH_HIGH` (R125, R126). -/
def execTXchg (byte : Byte) (s : State) : Host.Outcome State Fault Refusal :=
  .next (s.startXchg byte (exchangeIndex s.ph))

end Sys2Proof.Machine
end

