-- ==== Sys2Proof/Machine/Wire.lean ====
section
/-! DEFINITION. The observer's operations (R136) and the meaning of the WIRE16 row: what a Command Frame does to the DAC that takes it (log 6). -/

namespace Sys2Proof.Machine

/-- A bit sampled at a rising edge of SCK with Chip-Select low (R136). -/
def Dac.sample (d : Dac) (b : Level) : Dac := { d with bits := d.bits ++ [b] }

/-- A whole frame taken when Chip-Select rises; after a partial frame the answer stays `undefined` (R136; log 5). -/
def Dac.take (d : Dac) (w : Frame) : Dac :=
  let v := if d.tainted then Seen.undefined else Seen.word w
  { d with bits := [], frames := d.frames ++ [v], pending := some v }

/-- A partial frame: from here on every answer is `undefined` until the observer is restarted (R136, U1; log 5). -/
def Dac.takePartial (d : Dac) : Dac :=
  { d with bits := [], frames := d.frames ++ [.undefined], pending := some .undefined,
           latched := some .undefined, tainted := true }

/-- Chip-Select rises: the interval is a frame if exactly 16 bits were sampled in it, else a partial frame (R42, R136). -/
def Dac.endInterval (d : Dac) : Dac :=
  if d.bits.length = 16 then d.take (wireWord d.bits) else d.takePartial

/-- Latch-Enable is asserted: the command taken last goes to the output (R136). -/
def Dac.latch (d : Dac) : Dac := { d with latched := d.pending }

/-- `FRAME`: the DAC takes the 16 bits `{ctrl, code}` as its command (R60, R136; log 6). -/
def execFrame (ctrl : Nibble) (code : Code12) (s : State) : Host.Outcome State Fault Refusal :=
  .next { s with dac := s.dac.take (ctrl ++ code) }

/-- The three tests of `observe` for the tick from `a` to `b`, in its order (R136). -/
def Dac.see (d : Dac) (a b : State) : Dac :=
  let d := if !a.csn && !a.sck && b.sck then d.sample a.mosi else d
  let d := if !a.csn && b.csn then d.endInterval else d
  if a.len && !b.len then d.latch else d

/-- One tick of the observer; while `bus_oe = 0` it sees nothing (R136; target 1 of R137). -/
def observe (a b : State) : State := { b with dac := if a.en then b.dac.see a b else b.dac }

end Sys2Proof.Machine
end

