-- ==== Sys2Proof/Machine/Dispatch.lean ====
section
/-! DEFINITION. One arm per constructor of Instr. -/

namespace Sys2Proof.Machine

def exec (i : Instr) (s : State) : Host.Outcome State Fault Refusal :=
  match i with
  | .nop => Sys2Proof.Machine.execNop s
  | .init => Sys2Proof.Machine.execInit s
  | .writev code => Sys2Proof.Machine.execWritev code s
  | .reserved3 => Sys2Proof.Machine.execReserved3 s
  | .reserved47 low => Sys2Proof.Machine.execReserved47 low s
  | .reserved8F low => Sys2Proof.Machine.execReserved8F low s
  | .tInit => Sys2Proof.Machine.execTInit s
  | .tSel => Sys2Proof.Machine.execTSel s
  | .tDesel => Sys2Proof.Machine.execTDesel s
  | .tXchg byte => Sys2Proof.Machine.execTXchg byte s
  | .frame ctrl code => Sys2Proof.Machine.execFrame ctrl code s

end Sys2Proof.Machine
end

