-- ==== Sys2Proof/Machine/Phases.lean ====
section
/-! DEFINITION. The tick-level step function of the block: one rule per phase (42_step_function.md R120 to R132), and the internal micro-command signal (R89). -/

namespace Sys2Proof.Machine

/-- The head of every timed phase's rule (R132): stay while `DLY` is not 0, else the phase's exit actions. -/
def dwell (s : State) (exit : State → Host.Outcome State Fault Refusal) : Host.Outcome State Fault Refusal :=
  if s.dly = 0#_ then exit s else .next s.countDown

/-- `IDLE` (R121): a presented word is decoded and executed; otherwise nothing. -/
def idleTick (inp : Inputs) (s : State) : Host.Outcome State Fault Refusal :=
  if inp.cmdValid then exec (decodeHost inp.cmd) s else .next s

/-- `LE_NORM` (R122): its exit is `T_SEL` and the Chip-Select setup dwell. -/
def leNormTick (s : State) : Host.Outcome State Fault Refusal :=
  dwell s fun s => onNext (exec .tSel s) fun t => t.enter .csSetup t.cfg.tCss

/-- `CS_SETUP` (R123): its exit is `T_XCHG` of the high byte. -/
def csSetupTick (s : State) : Host.Outcome State Fault Refusal :=
  dwell s fun s => exec (.tXchg (highByte s.fr)) s

/-- `SH_LOW` (R125): its exit is the rising edge. -/
def shLowTick (inp : Inputs) (s : State) : Host.Outcome State Fault Refusal :=
  dwell s fun s => .next ((s.riseClock inp.miso).enter .shHigh s.cfg.tHalf)

/-- `SH_HIGH` (R126): its exit is the falling edge; the eighth one completes the exchange. -/
def shHighTick (s : State) : Host.Outcome State Fault Refusal :=
  dwell s fun s =>
    if s.lastPulse then .next (s.fallClock.setTc.goto .xdone)
    else .next (s.fallClock.driveNextBit.enter .shLow s.cfg.tHalf)

/-- `XDONE` (R127), not timed: `T_XCHG` of the low byte after the high one, then the hold dwell. -/
def xdoneTick (s : State) : Host.Outcome State Fault Refusal :=
  if s.byteidx then .next (s.enter .csHold s.cfg.tCsh) else exec (.tXchg (lowByte s.fr)) s

/-- `CS_HOLD` (R128): its exit is `T_DESEL` and the gap before the latch pulse. -/
def csHoldTick (s : State) : Host.Outcome State Fault Refusal :=
  dwell s fun s => onNext (exec .tDesel s) fun t => t.enter .csLeGap t.cfg.tCsle

/-- `CS_LE_GAP` (R129): its exit lowers Latch-Enable. -/
def csLeGapTick (s : State) : Host.Outcome State Fault Refusal :=
  dwell s fun s => .next (s.assertLatch.enter .lePulse s.cfg.tLew)

/-- `LE_PULSE` (R130): its exit raises Latch-Enable and returns. -/
def lePulseTick (s : State) : Host.Outcome State Fault Refusal :=
  dwell s fun s => .next (s.deassertLatch.goto .idle)

/-- `HUNG` (R131): no register changes; a hang is a next state, never the end of a run (R154; target 7 of R137). -/
def hungTick (s : State) : Host.Outcome State Fault Refusal := .next s

/-- `step` of R120, over the twelve registers: reset first, then the rule of the phase (R153). -/
def blockTick (inp : Inputs) (s : State) : Host.Outcome State Fault Refusal :=
  if inp.rst then .next s.resetRegs else
  match s.ph with
  | .idle => idleTick inp s
  | .leNorm => leNormTick s
  | .csSetup => csSetupTick s
  | .shLow => shLowTick inp s
  | .shHigh => shHighTick s
  | .xdone => xdoneTick s
  | .csHold => csHoldTick s
  | .csLeGap => csLeGapTick s
  | .lePulse => lePulseTick s
  | .hung => hungTick s

/-- The T-op an accepted host command issues at its accept tick (R89, first two rows). -/
def hostSignal (i : Instr) (s : State) : Option Instr :=
  match i with
  | .init => some .tInit
  | .writev _ => if s.len then some .tSel else none
  | .nop | .reserved3 | .reserved47 _ | .reserved8F _ | .tInit | .tSel | .tDesel | .tXchg _ | .frame _ _ => none

/-- The micro-command of a cycle (R89): `none` is `t_valid = 0`. -/
def transportSignal (inp : Inputs) (s : State) : Option Instr :=
  if inp.rst then none else
  match s.ph with
  | .idle => if inp.cmdValid then hostSignal (decodeHost inp.cmd) s else none
  | .leNorm => if s.dly = 0#_ then some .tSel else none
  | .csSetup => if s.dly = 0#_ then some (.tXchg (highByte s.fr)) else none
  | .xdone => if s.byteidx then none else some (.tXchg (lowByte s.fr))
  | .csHold => if s.dly = 0#_ then some .tDesel else none
  | .shLow | .shHigh | .csLeGap | .lePulse | .hung => none

end Sys2Proof.Machine
end

