-- ==== Sys2Proof/Machine/Ports.lean ====
section
/-! DEFINITION. The output ports (R21, R133), the bus pads (R21, U10), the host agent's presentation of inputs (R20, R71, R185), and the end of a run (R186). -/

namespace Sys2Proof.Machine

/-- The six output ports (R21). -/
structure Outputs where
  ready : Level
  sck : Level
  mosi : Level
  csN : Level
  busOe : Level
  leN : Level
  deriving DecidableEq, Repr

/-- Every output is a function of the state alone (R21, R133). -/
def State.outputs (s : State) : Outputs :=
  { ready := s.ready, sck := s.sck, mosi := s.mosi, csN := s.csn, busOe := s.en, leN := s.len }

/-- What the block itself drives on a bus pad: nothing while `bus_oe = 0`, when the board decides (R21, U10; log 10). -/
def Outputs.pad (o : Outputs) (level : Level) : Option Level := if o.busOe then some level else none

/-- The inputs of a cycle in which no script fixes them: the eager host (R71) or an idle host (R185), and a free draw
of `miso` (R50; log 2, log 3). -/
def State.eagerInputs (s : State) : Inputs :=
  match s.host.program with
  | w :: _ => { rst := false, cmdValid := s.ready, cmd := w, miso := Config.freeMiso s.draw }
  | [] => { rst := false, cmdValid := false, cmd := 0#20, miso := Config.freeMiso s.draw }

/-- The inputs of the present cycle (R120; log 2). -/
def State.inputs (s : State) : Inputs :=
  match s.host.script with
  | i :: _ => i
  | [] => s.eagerInputs

/-- The host agent after the present cycle: a scripted cycle is over; an eagerly presented command was accepted (R71). -/
def HostAgent.advance (h : HostAgent) (ready : Level) : HostAgent :=
  match h.script with
  | _ :: rest => { h with script := rest }
  | [] => if ready then { h with program := h.program.tail } else h

/-- The host agent and the draw counter moved on by one cycle; no register changes. -/
def State.advanceHost (s : State) : State :=
  { s with host := s.host.advance s.ready, draw := s.draw + 1 }

/-- The run of the host's list of commands is over (R186): all accepted, nothing scripted (log 2), and
`ready = 1`. -/
def State.runOver (s : State) : Bool := s.ready && s.host.program.isEmpty && s.host.script.isEmpty

end Sys2Proof.Machine
end

