-- ==== Sys2Proof/Machine/Tick.lean ====
section
/-! DEFINITION. One tick of the machine for given inputs (R120), runs over a list of inputs, and where a given instruction is placed so that the next tick runs it (log 13). -/

namespace Sys2Proof.Machine

/-- One tick (R120) with the observer watching it (R136); an ill-formed configuration is refused (R5). -/
def tick (inp : Inputs) (s : State) : Host.Outcome State Fault Refusal :=
  if s.cfg.wf then onNext (blockTick inp s) (observe s) else .refused .illFormedConfig

/-- The ticks of a list of cycles, in order (R6, R120): the runs of R137, which compose (its target 5). -/
def ticks : List Inputs → State → Host.Outcome State Fault Refusal
  | [], s => .next s
  | inp :: rest, s =>
    match tick inp s with
    | .next t => ticks rest t
    | .fault r => .fault r
    | .refused r => .refused r

/-- The states of the cycles of a run, the first one before any tick (R6); a run that stops has no further state. -/
def trace : List Inputs → State → List State
  | [], s => [s]
  | inp :: rest, s =>
    match tick inp s with
    | .next t => s :: trace rest t
    | .fault _ => [s]
    | .refused _ => [s]

/-- The host presents `w` in the next cycle, and the block can accept it (R49, R71). -/
def State.presentCommand (s : State) (w : HostWord) : State :=
  { s with ph := .idle, host := { script := [], program := w :: s.host.program } }

/-- The sequencer is at the end of a timed phase, with no input scripted. -/
def State.atExit (s : State) (p : Phase) : State :=
  { s with ph := p, dly := 0#_, host := { s.host with script := [] } }

/-- A state whose next tick issues the given micro-command (R89). -/
def State.placeTop (s : State) (w : TWord) : State :=
  match decodeTop w with
  | .tInit => s.presentCommand (hostWord 0x1#4 0#16)
  | .tSel => s.atExit .leNorm
  | .tDesel => s.atExit .csHold
  | .tXchg byte => { s.atExit .csSetup with fr := byte ++ lowByte s.fr }
  | .nop | .init | .writev _ | .reserved3 | .reserved47 _ | .reserved8F _ | .frame _ _ => s

/-- A state whose next tick ends a Chip-Select-low interval in which the 16 bits of `w` were clocked out (R136). -/
def State.placeWire (s : State) (w : Frame) : State :=
  { s.atExit .csHold with en := true, csn := false, dac := { s.dac with bits := wireBits w } }

/-- The instruction whose bits are `w`, placed where the next tick takes it from; see log 13. -/
def State.placeWord (s : State) (nbits w : Nat) : State :=
  match tableWord nbits w with
  | some (.host h) => s.presentCommand h
  | some (.top t) => s.placeTop t
  | some (.wire f) => s.placeWire f
  | none => s

end Sys2Proof.Machine
end

