-- ==== Sys2Proof/Machine/Step.lean ====
section
/-! DEFINITION. One step of the whole machine: the cycle's inputs come from the host agent held in State, the block and the observer tick, the host moves on. -/

namespace Sys2Proof.Machine

/-- One tick of block, observer and host (R120). -/
def step (s : State) : Host.Outcome State Fault Refusal := tick s.inputs s.advanceHost

/-- `s` with the instruction whose bits are `w` where the next step takes it from (log 13). -/
def State.withFetchWord (s : State) (nbits w : Nat) : State := s.placeWord nbits w

end Sys2Proof.Machine
end

