-- ==== Sys2Proof/Safety.lean ====
section
/-! DEFINITION. The terms claims are stated in: the invariants of the reachable states (R26) and of a call in progress, the host's duties (R173 to R180, R185), the durations (R183) and the waveform (R134) of a call, the event levels of a call (R114). -/

namespace Sys2Proof.Machine

/-- The phases in which Chip-Select is asserted (R26 item 2). -/
def Phase.selected : Phase → Bool
  | .csSetup | .shLow | .shHigh | .xdone | .csHold | .hung => true
  | .idle | .leNorm | .csLeGap | .lePulse => false

/-- The timed phases (R132). -/
def Phase.timed : Phase → Bool
  | .leNorm | .csSetup | .shLow | .shHigh | .csHold | .csLeGap | .lePulse => true
  | .idle | .xdone | .hung => false

/-- The dwell of a timed phase (R132, with the dwells of R121 to R129). -/
def Phase.dwell (c : Config) : Phase → Option Nat
  | .leNorm => some c.tLeh
  | .csSetup => some c.tCss
  | .shLow | .shHigh => some c.tHalf
  | .csHold => some c.tCsh
  | .csLeGap => some c.tCsle
  | .lePulse => some c.tLew
  | .idle | .xdone | .hung => none

/-- The invariants of R26, items 1 to 8, and the one fact that item 5 needs to be kept by every step. Targets 3 and 4 of
R137 read `selected` and `idle_rest`. -/
structure State.Inv (s : State) : Prop where
  /-- Item 1. -/
  idle_rest : s.ph = .idle → s.sck = false ∧ s.csn = true ∧ s.len = true ∧ s.bitcnt = 0#4 ∧ s.dly = 0#_
  /-- Item 2. -/
  selected : s.csn = false ↔ s.ph.selected = true
  /-- Item 3. -/
  latch_low : s.len = false ↔ s.ph = .lePulse
  /-- Item 3, its consequence. -/
  never_norm : s.ph ≠ .leNorm
  /-- Item 4. -/
  clock_high : s.sck = true ↔ s.ph = .shHigh
  /-- Item 5. -/
  disabled : s.en = false → s.tc = false ∧ s.sck = false
  /-- Item 6. -/
  hung : s.ph = .hung → s.en = false ∧ s.csn = false
  /-- Item 7. -/
  never_both : ¬ (s.csn = false ∧ s.len = false)
  /-- Item 8, the range. -/
  bitcnt_le : s.bitcnt.toNat ≤ 8
  /-- Item 8, when it is not 0. -/
  bitcnt_pos : (1 ≤ s.bitcnt.toNat ∧ s.bitcnt.toNat ≤ 8) ↔ (s.ph = .shLow ∨ s.ph = .shHigh)
  /-- No item of R26, but behind item 5: an exchange, once started, runs on an enabled Transport (R83, R124). -/
  exchange_enabled : s.ph = .shLow ∨ s.ph = .shHigh ∨ s.ph = .xdone ∨ s.ph = .csHold → s.en = true

/-- The byte of the frame being exchanged (R16). -/
def State.currentByte (s : State) : Byte := if s.byteidx then lowByte s.fr else highByte s.fr

/-- How many bits of the frame have been clocked out in the present Chip-Select-low interval. -/
def State.sampledCount (s : State) : Nat :=
  match s.ph with
  | .shLow => (if s.byteidx then 8 else 0) + (8 - s.bitcnt.toNat)
  | .shHigh => (if s.byteidx then 8 else 0) + (9 - s.bitcnt.toNat)
  | .xdone => if s.byteidx then 16 else 8
  | .csHold => 16
  | .idle | .leNorm | .csSetup | .csLeGap | .lePulse | .hung => 0

/-- How many bits of the byte being sent are still in the top of the shift register. -/
def State.unsentBits (s : State) : Nat :=
  if s.ph = .shHigh then s.bitcnt.toNat - 1 else s.bitcnt.toNat

/-- What holds between the frame, the shift register and the data line during an exchange (R82). -/
structure State.ShiftInv (s : State) : Prop where
  /-- The data line holds the bit of the present clock pulse. -/
  data_line : s.ph = .shLow ∨ s.ph = .shHigh → s.mosi = s.currentByte.getLsbD (s.bitcnt.toNat - 1)
  /-- The bits not sent yet stand in the top of the shift register, above every received bit. -/
  unsent : s.ph = .shLow ∨ s.ph = .shHigh →
    s.sr.toNat / 2 ^ (8 - s.unsentBits) = s.currentByte.toNat % 2 ^ s.unsentBits

/-- What holds between the frame and what the observer has been shown: the call in progress sends its own frame and
nothing else (R41, R42, R103, R136). -/
structure State.WireInv (s : State) : Prop where
  /-- Outside `IDLE` the frame begins with the control nibble (R60, R103). -/
  nibble : s.ph ≠ .idle → s.fr.extractLsb' 12 4 = s.cfg.ctrl
  /-- The observer has been shown the frame's bits in order, bit 15 first (R41, R136). -/
  shown : s.dac.bits = (wireBits s.fr).take s.sampledCount

/-- What every frame the observer has ever seen is: undefined, or a word that begins with the control nibble; and
without a partial frame none is undefined (R60, R136). -/
structure State.FramesInv (s : State) : Prop where
  nibble : ∀ w : Frame, Seen.word w ∈ s.dac.frames → w.extractLsb' 12 4 = s.cfg.ctrl
  whole : s.dac.tainted = false → Seen.undefined ∉ s.dac.frames

/-- The host's duties in one cycle (R173, R174, R176, R185): no reset while busy unless hung, no `WRITEV` accepted
before `INIT`. -/
structure Dutiful (inp : Inputs) (s : State) : Prop where
  reset_only_at_rest : inp.rst = true → s.ph = .idle ∨ s.ph = .hung
  init_before_write : s.ph = .idle → inp.cmdValid = true → ∀ c, decodeHost inp.cmd = .writev c → s.en = true

/-- The block is not lost and the DAC's answer is defined: no call runs on a disabled Transport (R174), and no partial
frame has been seen (R176). -/
structure State.Sound (s : State) : Prop where
  enabled : s.ph ≠ .idle → s.en = true
  untainted : s.dac.tainted = false

/-- Cycles with `ready = 0` of a call with `EN = 1` and `LEN = 1` (R134, R183). -/
def busyCycles (c : Config) : Nat := c.tCss + 32 * c.tHalf + 2 + c.tCsh + c.tCsle + c.tLew

/-- The levels the waveform table lists for one cycle (R134). -/
structure WaveRow where
  ph : Phase
  csN : Level
  sck : Level
  mosi : Level
  leN : Level
  deriving DecidableEq, Repr

/-- The rows of one byte's eight clock pulses (R134): pulse `j`, counted from 0, carries frame bit `top - j`, for
`h` cycles of clock low and then `h` cycles of clock high. -/
def byteRows (h : Nat) (f : Frame) (top : Nat) : List WaveRow :=
  (List.range 8).flatMap fun j =>
    List.replicate h { ph := .shLow, csN := false, sck := false, mosi := f.getLsbD (top - j), leN := true } ++
    List.replicate h { ph := .shHigh, csN := false, sck := true, mosi := f.getLsbD (top - j), leN := true }

/-- The table of R134 for a call with frame `f`, one row a cycle, from the cycle after the accepting one to the first
cycle back in `IDLE`; `before` is the level of `mosi` when the call was accepted (targets 1 and 4 of R137). -/
def callRows (c : Config) (f : Frame) (before : Level) : List WaveRow :=
  List.replicate c.tCss { ph := .csSetup, csN := false, sck := false, mosi := before, leN := true } ++
  byteRows c.tHalf f 15 ++
  [{ ph := .xdone, csN := false, sck := false, mosi := f.getLsbD 8, leN := true }] ++
  byteRows c.tHalf f 7 ++
  [{ ph := .xdone, csN := false, sck := false, mosi := f.getLsbD 0, leN := true }] ++
  List.replicate c.tCsh { ph := .csHold, csN := false, sck := false, mosi := f.getLsbD 0, leN := true } ++
  List.replicate c.tCsle { ph := .csLeGap, csN := true, sck := false, mosi := f.getLsbD 0, leN := true } ++
  List.replicate c.tLew { ph := .lePulse, csN := true, sck := false, mosi := f.getLsbD 0, leN := false } ++
  [{ ph := .idle, csN := true, sck := false, mosi := f.getLsbD 0, leN := true }]

/-- The levels a state shows, for comparison with a row of the waveform (R133). -/
def State.waveRow (s : State) : WaveRow :=
  { ph := s.ph, csN := s.outputs.csN, sck := s.outputs.sck, mosi := s.outputs.mosi, leN := s.outputs.leN }

/-- The four lines of the block's pins at one moment (R12). -/
structure Lines where
  csN : Level
  sck : Level
  mosi : Level
  leN : Level
  deriving DecidableEq, Repr

/-- The levels a state drives on the four lines (R12, R133). -/
def State.lines (s : State) : Lines :=
  { csN := s.outputs.csN, sck := s.outputs.sck, mosi := s.outputs.mosi, leN := s.outputs.leN }

/-- The line levels after each event of one byte's clock pulses (R114): every rise, then every fall with the next bit,
except that the eighth fall leaves `mosi` as it is. -/
def byteEvents (f : Frame) (top : Nat) : List Lines :=
  (List.range 8).flatMap fun j =>
    [{ csN := false, sck := true, mosi := f.getLsbD (top - j), leN := true },
     { csN := false, sck := false, mosi := f.getLsbD (top - min (j + 1) 7), leN := true }]

/-- The line levels after each line of the event-level trace of R114, in order, with no timing at all. -/
def callEvents (f : Frame) (before : Level) : List Lines :=
  [{ csN := false, sck := false, mosi := before, leN := true },
   { csN := false, sck := false, mosi := f.getLsbD 15, leN := true }] ++
  byteEvents f 15 ++
  [{ csN := false, sck := false, mosi := f.getLsbD 7, leN := true }] ++
  byteEvents f 7 ++
  [{ csN := true, sck := false, mosi := f.getLsbD 0, leN := true },
   { csN := true, sck := false, mosi := f.getLsbD 0, leN := false },
   { csN := true, sck := false, mosi := f.getLsbD 0, leN := true }]

/-- A list of levels with every immediate repetition removed: the events alone, without how long each level is held. -/
def changes (l : List Lines) : List Lines := l.destutter (· ≠ ·)

/-- The rising clock edges of a run, in order, each with the level of Chip-Select and of `mosi` in the cycle before the
edge (R41, R42, R136). -/
def pulses : List Lines → List (Level × Level)
  | [] => []
  | [_] => []
  | a :: b :: rest => (if !a.sck && b.sck then [(a.csN, a.mosi)] else []) ++ pulses (b :: rest)

/-- No cycle of a run asserts `rst`. -/
def NoReset (ins : List Inputs) : Prop := ∀ inp ∈ ins, inp.rst = false

/-- Two cycles whose inputs agree in everything but the input line (target 6 of R137). -/
def SameButMiso (a b : Inputs) : Prop := a.rst = b.rst ∧ a.cmdValid = b.cmdValid ∧ a.cmd = b.cmd

/-- The registers the Bus Transport owns (R90). -/
structure TransportRegs where
  en : Level
  sck : Level
  mosi : Level
  csn : Level
  sr : Byte
  bitcnt : BitVec 4
  tc : Level
  deriving DecidableEq, Repr

/-- The Bus Transport's registers of a state (R90). -/
def State.transport (s : State) : TransportRegs :=
  { en := s.en, sck := s.sck, mosi := s.mosi, csn := s.csn, sr := s.sr, bitcnt := s.bitcnt, tc := s.tc }

/-- The twelve registers of two states agree (R10). -/
def State.SameRegs (s t : State) : Prop :=
  s.transport = t.transport ∧ s.len = t.len ∧ s.fr = t.fr ∧ s.byteidx = t.byteidx ∧ s.ph = t.ph ∧ s.dly.toNat = t.dly.toNat

/-- A byte's bits in the order they are sent, bit 7 first (R41). -/
def byteBits (b : Byte) : List Level := (List.range 8).map fun k => b.getLsbD (7 - k)

/-- The observer's answers are undefined and nothing more is awaited: how R136 leaves it after a partial frame. -/
def Dac.Lost (d : Dac) : Prop := d.tainted = true ∧ d.pending = some .undefined ∧ d.latched = some .undefined

end Sys2Proof.Machine
end

