-- ==== Sys2Proof/Certificates/Slice0/Obligations.lean ====
section
/-! DEFINITION. The statements for the provers, from the numbered rules of spec/. Each docstring names the rule. -/

open Sys2Proof Sys2Proof.Machine

/-- R70: the match and mask pairs of the host word, and what each class decodes to; the reserved class keeps its opcode. -/
def Obligations.HostWordsDecodeByMatchAndMask : Prop :=
  ∀ w : HostWord,
    (w &&& 0xF0000#20 = 0x00000#20 → decodeHost w = .nop) ∧
    (w &&& 0xF0000#20 = 0x10000#20 → decodeHost w = .init) ∧
    (w &&& 0xF0000#20 = 0x20000#20 → decodeHost w = .writev (w.extractLsb' 0 12)) ∧
    (w &&& 0xF0000#20 = 0x30000#20 → decodeHost w = .reserved3) ∧
    (w &&& 0xC0000#20 = 0x40000#20 → decodeHost w = .reserved47 (w.extractLsb' 16 2)) ∧
    (w &&& 0x80000#20 = 0x80000#20 → decodeHost w = .reserved8F (w.extractLsb' 16 3))

/-- R67: the four micro-commands by `TOP`; only `T_XCHG` reads `TBYTE`. -/
def Obligations.MicroCommandsDecodeByTop : Prop :=
  ∀ byte : Byte,
    decodeTop (0b00#2 ++ byte) = .tInit ∧ decodeTop (0b01#2 ++ byte) = .tSel ∧
    decodeTop (0b10#2 ++ byte) = .tDesel ∧ decodeTop (0b11#2 ++ byte) = .tXchg byte

/-- R60: sixteen bits on the wire are the nibble then the code. That they are rejected by name with C3 = 1 is the model's
reading of R5 and R60 (DEDUCED, log 16). -/
def Obligations.WireWordsDecodeOrAreRejected : Prop :=
  ∀ (ctrl : Nibble) (code : Code12),
    (ctrl.msb = false → decodeWire (ctrl ++ code) = .ok (.frame ctrl code)) ∧
    (ctrl.msb = true → decodeWire (ctrl ++ code) = .error .writeEnableSet)

/-- opcode_table.json, R70, R67, R60: every word matches exactly one row of its format, the decoded one's, and a wire
word that is rejected matches none. -/
def Obligations.EveryWordMatchesItsOwnRowOnly : Prop :=
  (∀ w : HostWord, matchingRows hostRows w = [(decodeHost w).mnemonic]) ∧
  (∀ w : TWord, matchingRows topRows w = [(decodeTop w).mnemonic]) ∧
  (∀ w : Frame, matchingRows wireRows w =
    match decodeWire w with
    | .ok i => [i.mnemonic]
    | .error _ => [])

/-- Decoding the canonical encoding of a well-formed instruction gives it back, for every operand. -/
def Obligations.DecodeOfEncodeIsIdentity : Prop :=
  ∀ i : Instr, i.wf = true → decode (encode i) = .ok i

/-- R66: re-encoding a decoded word clears exactly the ignored bits, and a decoded frame has none. -/
def Obligations.EncodeOfDecodeClearsIgnoredBits : Prop :=
  (∀ w : HostWord, encode (decodeHost w) =
    .host (if w &&& 0xF0000#20 = 0x20000#20 then w &&& 0xF0FFF#20 else w &&& 0xF0000#20)) ∧
  (∀ w : TWord, encode (decodeTop w) = .top (if w &&& 0x300#10 = 0x300#10 then w else w &&& 0x300#10)) ∧
  (∀ (w : Frame) (i : Instr), decodeWire w = .ok i → encode i = .wire w)

/-- 95_test_vectors.md section 2.2: the words tabulated there decode as tabulated. -/
def Obligations.TabulatedWordsDecode : Prop :=
  decodeHost 0x00000#20 = .nop ∧ decodeHost 0x0FFFF#20 = .nop ∧ decodeHost 0x10000#20 = .init ∧
  decodeHost 0x1BEEF#20 = .init ∧ decodeHost 0x20800#20 = .writev 0x800#12 ∧
  decodeHost 0x2F800#20 = .writev 0x800#12 ∧ decodeHost 0x30000#20 = .reserved3 ∧
  decodeHost 0xF1234#20 = .reserved8F 7#3 ∧ decodeHost 0x80000#20 = .reserved8F 0#3

/-- R69: what each line of a host program assembles to, and that `WRITEV12` is rejected above 4095. -/
def Obligations.AssemblerWords : Prop :=
  assemble .nop = some 0x00000#20 ∧ assemble .init = some 0x10000#20 ∧
  (∀ imm : BitVec 16, assemble (.writev imm) = some (0x20000#20 + imm.setWidth 20)) ∧
  (∀ w : HostWord, assemble (.word w) = some w) ∧
  (∀ n : Nat, n ≤ 4095 → assemble (.writev12 n) = some (0x20000#20 + BitVec.ofNat 20 n)) ∧
  (∀ n : Nat, 4095 < n → assemble (.writev12 n) = none)

/-- R100: the code is masked to its low 12 bits, and a code above 4095 behaves exactly as the masked one, in every
cycle, with nothing recording the dropped bits. -/
def Obligations.OutOfRangeCodesAreMasked : Prop :=
  (∀ arg : BitVec 16, (maskCode arg).toNat = arg.toNat % 4096 ∧ maskCode arg = (arg &&& 0x0FFF#16).setWidth 12) ∧
  maskCode 0x1000#16 = 0x000#12 ∧ maskCode 0x1ABC#16 = 0xABC#12 ∧
  (∀ (arg : BitVec 16) (inp : Inputs) (s : State),
    tick { inp with cmd := 0x2#4 ++ arg } s = tick { inp with cmd := 0x2#4 ++ (arg &&& 0x0FFF#16) } s)

/-- R60, R101, R102: the high byte, the low byte, the frame they make, and the bit under each clock pulse. -/
def Obligations.FrameLayout : Prop :=
  ∀ (ctrl : Nibble) (code : Code12),
    (composeHigh ctrl code).toNat = ctrl.toNat * 16 + code.toNat / 256 ∧
    (composeLow code).toNat = code.toNat % 256 ∧
    (composeFrame ctrl code).toNat = ctrl.toNat * 4096 + code.toNat ∧
    highByte (composeFrame ctrl code) = composeHigh ctrl code ∧
    lowByte (composeFrame ctrl code) = composeLow code ∧
    (∀ j, j < 12 → (composeFrame ctrl code).getLsbD j = code.getLsbD j) ∧
    (∀ j, j < 4 → (composeFrame ctrl code).getLsbD (12 + j) = ctrl.getLsbD j) ∧
    (∀ k, 1 ≤ k → k ≤ 16 →
      (wireBits (composeFrame ctrl code))[k - 1]? = some ((composeFrame ctrl code).getLsbD (16 - k)))

/-- A step runs the decoded instruction, host words: in `IDLE` the presented word is executed, the observer watching
the tick and the model's host agent (log 2) having moved on (R49, R121). -/
def Obligations.StepRunsThePresentedCommand : Prop :=
  ∀ (s : State) (i : Instr), s.cfg.wf = true → s.ph = .idle → s.inputs.rst = false → s.inputs.cmdValid = true →
    decodeHost s.inputs.cmd = i →
    step s = onNext (exec i s.advanceHost) (observe s.advanceHost)

/-- A step runs the decoded instruction, micro-commands: the T-op that R89 names is executed, with the Sequencer's own
register writes around it (R121 to R128). -/
def Obligations.StepRunsTheIssuedMicroCommand : Prop :=
  ∀ (inp : Inputs) (s : State), inp.rst = false →
    (s.ph = .idle → inp.cmdValid = true → decodeHost inp.cmd = .init →
      transportSignal inp s = some .tInit ∧ blockTick inp s = exec .tInit s) ∧
    (∀ c, s.ph = .idle → inp.cmdValid = true → decodeHost inp.cmd = .writev c → s.len = true →
      transportSignal inp s = some .tSel ∧
      blockTick inp s = onNext (exec .tSel s) fun t =>
        { t with fr := s.cfg.ctrl ++ c, ph := .csSetup, dly := BitVec.ofNat _ (s.cfg.tCss - 1) }) ∧
    (s.ph = .leNorm → s.dly = 0#_ →
      transportSignal inp s = some .tSel ∧
      blockTick inp s = onNext (exec .tSel s) fun t => { t with ph := .csSetup, dly := BitVec.ofNat _ (s.cfg.tCss - 1) }) ∧
    (s.ph = .csSetup → s.dly = 0#_ →
      transportSignal inp s = some (.tXchg (highByte s.fr)) ∧ blockTick inp s = exec (.tXchg (highByte s.fr)) s) ∧
    (s.ph = .xdone → s.byteidx = false →
      transportSignal inp s = some (.tXchg (lowByte s.fr)) ∧ blockTick inp s = exec (.tXchg (lowByte s.fr)) s) ∧
    (s.ph = .csHold → s.dly = 0#_ →
      transportSignal inp s = some .tDesel ∧
      blockTick inp s = onNext (exec .tDesel s) fun t => { t with ph := .csLeGap, dly := BitVec.ofNat _ (s.cfg.tCsle - 1) })

/-- A step runs the decoded instruction, wire words: when Chip-Select rises after the sixteen bits of a word, the frame
they decode to is executed (R136; the reading of log 6). -/
def Obligations.StepRunsTheFrameOnTheWire : Prop :=
  ∀ (inp : Inputs) (s : State) (w : Frame) (i : Instr), s.cfg.wf = true → inp.rst = false → s.ph = .csHold →
    s.dly = 0#_ → s.en = true → s.csn = false → s.dac.bits = wireBits w → decodeWire w = .ok i →
    tick inp s = exec i { s with csn := true, ph := .csLeGap, dly := BitVec.ofNat _ (s.cfg.tCsle - 1) }

/-- R120, R5: a tick answers a next state in every state and for every input, and an ill-formed configuration is refused
by name. -/
def Obligations.TickIsTotalOrRefusesTheConfiguration : Prop :=
  ∀ (inp : Inputs) (s : State),
    (s.cfg.wf = true → ∃ t, tick inp s = .next t) ∧ (s.cfg.wf = false → tick inp s = .refused .illFormedConfig)

/-- R4: no step writes a parameter. -/
def Obligations.ParametersNeverChange : Prop :=
  ∀ s t : State, step s = .next t → t.cfg = s.cfg

/-- R49, R120, R180: without reset, outside `IDLE` the command port is not read, and `miso` only at the end of
`SH_LOW`; in `IDLE` an unpresented word is not read. -/
def Obligations.InputsAreReadOnlyWhereTheyCount : Prop :=
  ∀ (a b : Inputs) (s : State), a.rst = b.rst →
    (s.ph = .idle → a.cmdValid = b.cmdValid ∧ (a.cmdValid = true → a.cmd = b.cmd)) →
    (s.ph = .shLow → s.dly = 0#_ → a.miso = b.miso) →
    tick a s = tick b s

/-- R90, R89: a cycle with a micro-command leaves the Transport's registers as that T-op leaves them; a cycle without
one, outside the two bit-level phases and reset, leaves them alone. -/
def Obligations.OnlyMicroCommandsWriteTheTransport : Prop :=
  ∀ (inp : Inputs) (s t : State), blockTick inp s = .next t →
    (∀ i, transportSignal inp s = some i → ∃ u, exec i s = .next u ∧ t.transport = u.transport) ∧
    (transportSignal inp s = none → inp.rst = false → s.ph ≠ .shLow → s.ph ≠ .shHigh → t.transport = s.transport)

/-- R24: with `rst = 1` every register takes the tabulated value at that tick, and nothing else changes. -/
def Obligations.ResetGivesTheTabulatedValues : Prop :=
  ∀ (inp : Inputs) (s : State), inp.rst = true →
    blockTick inp s = .next
      { s with en := false, sck := false, mosi := false, csn := true, len := true, sr := 0x00#8, fr := 0x0000#16,
               bitcnt := 0#4, byteidx := false, ph := .idle, dly := 0#_, tc := false }

/-- R171: what the pins show in the cycle after a tick with `rst = 1`: the three bus pads released, Latch-Enable
deasserted and driven, `ready`; and the levels behind the released pads. -/
def Obligations.ResetAtThePins : Prop :=
  ∀ (inp : Inputs) (s : State), inp.rst = true →
    ∃ t, blockTick inp s = .next t ∧
      t.outputs = { ready := true, sck := false, mosi := false, csN := true, busOe := false, leN := true } ∧
      t.outputs.pad t.outputs.sck = none ∧ t.outputs.pad t.outputs.mosi = none ∧ t.outputs.pad t.outputs.csN = none

/-- R170: one tick with `rst = 1` is enough from any state, while it is held the registers stay reset, and the first
cycle after it can accept a command. -/
def Obligations.HeldResetStaysReset : Prop :=
  ∀ (ins : List Inputs) (s : State), s.cfg.wf = true → ins ≠ [] → (∀ inp ∈ ins, inp.rst = true) →
    ∃ t, ticks ins s = .next t ∧ t.SameRegs State.reset ∧ t.ready = true

/-- R121: the whole rule of `IDLE`. -/
def Obligations.IdleRule : Prop :=
  ∀ (inp : Inputs) (s : State), inp.rst = false → s.ph = .idle →
    s.outputs.ready = true ∧
    (inp.cmdValid = false → blockTick inp s = .next s) ∧
    (inp.cmdValid = true → decodeHost inp.cmd = .nop → blockTick inp s = .next s) ∧
    (inp.cmdValid = true → decodeHost inp.cmd = .reserved3 → blockTick inp s = .next s) ∧
    (∀ l, inp.cmdValid = true → decodeHost inp.cmd = .reserved47 l → blockTick inp s = .next s) ∧
    (∀ l, inp.cmdValid = true → decodeHost inp.cmd = .reserved8F l → blockTick inp s = .next s) ∧
    (inp.cmdValid = true → decodeHost inp.cmd = .init →
      blockTick inp s = .next { s with en := true, sck := false, csn := true }) ∧
    (∀ c, inp.cmdValid = true → decodeHost inp.cmd = .writev c → s.len = false →
      blockTick inp s =
        .next { s with fr := s.cfg.ctrl ++ c, len := true, ph := .leNorm, dly := BitVec.ofNat _ (s.cfg.tLeh - 1) }) ∧
    (∀ c, inp.cmdValid = true → decodeHost inp.cmd = .writev c → s.len = true →
      blockTick inp s =
        .next { s with fr := s.cfg.ctrl ++ c, csn := false, ph := .csSetup, dly := BitVec.ofNat _ (s.cfg.tCss - 1) })

/-- R122: the exit of `LE_NORM`. -/
def Obligations.LatchNormalisedExit : Prop :=
  ∀ (inp : Inputs) (s : State), inp.rst = false → s.ph = .leNorm → s.dly = 0#_ →
    blockTick inp s = .next { s with csn := false, ph := .csSetup, dly := BitVec.ofNat _ (s.cfg.tCss - 1) }

/-- R123, R124: the exit of `CS_SETUP` starts the exchange of `FR[15:8]`, or hangs on a disabled Transport. -/
def Obligations.SetupExitStartsTheHighByte : Prop :=
  ∀ (inp : Inputs) (s : State), inp.rst = false → s.ph = .csSetup → s.dly = 0#_ →
    (s.en = false → blockTick inp s = .next { s with ph := .hung }) ∧
    (s.en = true → blockTick inp s = .next
      { s with sr := s.fr.extractLsb' 8 8, tc := false, bitcnt := 8#4, mosi := s.fr.getLsbD 15, byteidx := false,
               ph := .shLow, dly := BitVec.ofNat _ (s.cfg.tHalf - 1) })

/-- R125, R126: the two clock edges of a bit, the 4-bit wrap of `BITCNT` included. -/
def Obligations.ClockEdges : Prop :=
  ∀ (inp : Inputs) (s : State), inp.rst = false → s.dly = 0#_ →
    (s.ph = .shLow → blockTick inp s = .next
      { s with sck := true, sr := s.sr.extractLsb' 0 7 ++ BitVec.ofBool inp.miso, ph := .shHigh,
               dly := BitVec.ofNat _ (s.cfg.tHalf - 1) }) ∧
    (s.ph = .shHigh → s.bitcnt = 1#4 → blockTick inp s = .next
      { s with sck := false, bitcnt := 0#4, tc := true, ph := .xdone }) ∧
    (s.ph = .shHigh → s.bitcnt ≠ 1#4 → blockTick inp s = .next
      { s with sck := false, bitcnt := s.bitcnt - 1#4, mosi := s.sr.getLsbD 7, ph := .shLow,
               dly := BitVec.ofNat _ (s.cfg.tHalf - 1) })

/-- R127: `XDONE` starts the second byte (or hangs, R124), and after it the hold dwell; it is not timed. -/
def Obligations.ByteDoneRule : Prop :=
  ∀ (inp : Inputs) (s : State), inp.rst = false → s.ph = .xdone →
    (s.byteidx = true → blockTick inp s = .next { s with ph := .csHold, dly := BitVec.ofNat _ (s.cfg.tCsh - 1) }) ∧
    (s.byteidx = false → s.en = true → blockTick inp s = .next
      { s with sr := s.fr.extractLsb' 0 8, tc := false, bitcnt := 8#4, mosi := s.fr.getLsbD 7, byteidx := true,
               ph := .shLow, dly := BitVec.ofNat _ (s.cfg.tHalf - 1) }) ∧
    (s.byteidx = false → s.en = false → blockTick inp s = .next { s with ph := .hung })

/-- R128, R129, R130: Chip-Select rises, Latch-Enable falls, Latch-Enable rises and the call returns. -/
def Obligations.EndOfCallRules : Prop :=
  ∀ (inp : Inputs) (s : State), inp.rst = false → s.dly = 0#_ →
    (s.ph = .csHold → blockTick inp s = .next { s with csn := true, ph := .csLeGap, dly := BitVec.ofNat _ (s.cfg.tCsle - 1) }) ∧
    (s.ph = .csLeGap → blockTick inp s = .next { s with len := false, ph := .lePulse, dly := BitVec.ofNat _ (s.cfg.tLew - 1) }) ∧
    (s.ph = .lePulse → blockTick inp s = .next { s with len := true, ph := .idle })

/-- R132: a timed phase whose counter is not 0 only counts down, and a phase with counter `n` and no reset is still the
same, with nothing else changed, after each of the next `n` ticks. -/
def Obligations.DwellLastsExactlyItsCount : Prop :=
  (∀ (inp : Inputs) (s : State), inp.rst = false → s.ph.timed = true → s.dly ≠ 0#_ →
    blockTick inp s = .next { s with dly := s.dly - 1#_ }) ∧
  (∀ (ins : List Inputs) (s : State), s.cfg.wf = true → NoReset ins → s.ph.timed = true → ins.length ≤ s.dly.toNat →
    ticks ins s = .next { s with dly := s.dly - BitVec.ofNat _ ins.length })

/-- R131: without reset nothing ever changes in `HUNG`, whatever is presented, `INIT` included; `ready` is 0. -/
def Obligations.HungIsLeftOnlyByReset : Prop :=
  ∀ (ins : List Inputs) (s : State), s.cfg.wf = true → s.ph = .hung → NoReset ins →
    ticks ins s = .next s ∧ s.outputs.ready = false

/-- R65, R111, R112: `NOP` and the reserved opcodes complete with no register changed, as instructions and as words
accepted in `IDLE`, where they are the same as no command at all; `ready` stays 1; the canonical `NOP` is 0x00000. -/
def Obligations.NopAndReservedChangeNothing : Prop :=
  (∀ s : State, exec .nop s = .next s ∧ exec .reserved3 s = .next s ∧
    (∀ l, exec (.reserved47 l) s = .next s) ∧ (∀ l, exec (.reserved8F l) s = .next s)) ∧
  (∀ (inp : Inputs) (s : State), inp.rst = false → s.ph = .idle → inp.cmdValid = true →
    (inp.cmd.extractLsb' 16 4 = 0x0#4 ∨ 0x3#4 ≤ inp.cmd.extractLsb' 16 4) →
    s.outputs.ready = true ∧ blockTick inp s = .next s ∧ blockTick { inp with cmdValid := false } s = .next s) ∧
  encode .nop = .host 0x00000#20

/-- R80, R110: `INIT` and `T_INIT` complete with `EN = 1`, `SCK = 0`, `CSN = 1` and everything else unchanged; doing it
again changes nothing. -/
def Obligations.InitializeEnablesTheBus : Prop :=
  ∀ s : State,
    exec .init s = .next { s with en := true, sck := false, csn := true } ∧
    exec .tInit s = .next { s with en := true, sck := false, csn := true } ∧
    (∀ t, exec .init s = .next t → exec .init t = .next t)

/-- R84, R85: the select operations complete and write `CSN` alone, whether or not the Transport is enabled. -/
def Obligations.SelectOperationsWriteChipSelect : Prop :=
  ∀ s : State, exec .tSel s = .next { s with csn := false } ∧ exec .tDesel s = .next { s with csn := true }

/-- R103, R104, R121: the accept tick of `WRITEV` completes in every state: the frame is loaded, and Chip-Select falls or,
with Latch-Enable found asserted, Latch-Enable rises first. -/
def Obligations.WriteVoltageAcceptTick : Prop :=
  ∀ (c : Code12) (s : State),
    (s.len = true → exec (.writev c) s = .next
      { s with fr := s.cfg.ctrl ++ c, csn := false, ph := .csSetup, dly := BitVec.ofNat _ (s.cfg.tCss - 1) }) ∧
    (s.len = false → exec (.writev c) s = .next
      { s with fr := s.cfg.ctrl ++ c, len := true, ph := .leNorm, dly := BitVec.ofNat _ (s.cfg.tLeh - 1) })

/-- R124, R83: `start_xchg(b, idx)` starts the exchange on an enabled Transport, and on a disabled one it hangs and
changes nothing else; `T_XCHG` is it with idx 1 exactly from `XDONE` (idx there is the model's deduction, log 12). -/
def Obligations.ExchangeStartsOrHangs : Prop :=
  ∀ (b : Byte) (s : State),
    (s.en = true → exec (.tXchg b) s = .next
      { s with sr := b, tc := false, bitcnt := 8#4, mosi := b.getLsbD 7, byteidx := decide (s.ph = .xdone),
               ph := .shLow, dly := BitVec.ofNat _ (s.cfg.tHalf - 1) }) ∧
    (s.en = false → exec (.tXchg b) s = .next { s with ph := .hung }) ∧
    (∀ idx : Level,
      (s.en = true → s.startXchg b idx =
        { s with sr := b, tc := false, bitcnt := 8#4, mosi := b.getLsbD 7, byteidx := idx, ph := .shLow,
                 dly := BitVec.ofNat _ (s.cfg.tHalf - 1) }) ∧
      (s.en = false → s.startXchg b idx = { s with ph := .hung }))

/-- R136, in the reading of log 6 and log 5: a Command Frame is taken by the DAC as its pending command; after a partial
frame it is taken as undefined; no register of the block changes. -/
def Obligations.FrameIsTakenByTheDac : Prop :=
  ∀ (ctrl : Nibble) (code : Code12) (s : State),
    (s.dac.tainted = false → exec (.frame ctrl code) s = .next
      { s with dac := { s.dac with bits := [], frames := s.dac.frames ++ [.word (ctrl ++ code)],
                                   pending := some (.word (ctrl ++ code)) } }) ∧
    (s.dac.tainted = true → exec (.frame ctrl code) s = .next
      { s with dac := { s.dac with bits := [], frames := s.dac.frames ++ [.undefined],
                                   pending := some .undefined } })

/-- The frame of every instruction at the one tick that accepts or issues it, which is what exec is in this model (DESIGN
CHOICE, log 14): each register is unchanged by every instruction but those that write it at that tick (R121, R80 to R85,
R124); the parameters, the host agent and the draw counter are unchanged by all. The registers that R109 and R81 have
WRITEV and exchangeByte write at later ticks (SCK, and for WRITEV also MOSI, SR, BITCNT, BYTEIDX and TC) are written by
the phases. -/
def Obligations.FrameOfEveryInstruction : Prop :=
  ∀ (i : Instr) (s t : State), exec i s = .next t →
    t.cfg = s.cfg ∧ t.host = s.host ∧ t.draw = s.draw ∧
    (i ≠ .init → i ≠ .tInit → t.en = s.en ∧ t.sck = s.sck) ∧
    ((∀ b, i ≠ .tXchg b) →
      t.mosi = s.mosi ∧ t.sr = s.sr ∧ t.bitcnt = s.bitcnt ∧ t.byteidx = s.byteidx ∧ t.tc = s.tc) ∧
    (i ≠ .init → i ≠ .tInit → i ≠ .tSel → i ≠ .tDesel → (∀ c, i ≠ .writev c) → t.csn = s.csn) ∧
    ((∀ c, i ≠ .writev c) → t.len = s.len ∧ t.fr = s.fr) ∧
    ((∀ c, i ≠ .writev c) → (∀ b, i ≠ .tXchg b) → t.ph = s.ph ∧ t.dly.toNat = s.dly.toNat) ∧
    ((∀ c d, i ≠ .frame c d) → t.dac = s.dac)

/-- R133: every output is a function of the state alone, as tabulated. -/
def Obligations.OutputsAreTheRegisters : Prop :=
  ∀ s : State,
    (s.outputs.ready = true ↔ s.ph = .idle) ∧ s.outputs.sck = s.sck ∧ s.outputs.mosi = s.mosi ∧
    s.outputs.csN = s.csn ∧ s.outputs.leN = s.len ∧ s.outputs.busOe = s.en

/-- The invariants hold at reset, whatever the configuration (R24, R26); and they hold of State.reset itself. -/
def Obligations.InvariantsHoldAtReset : Prop :=
  (∀ s : State, s.resetRegs.Inv) ∧ State.reset.Inv ∧ State.reset.ShiftInv ∧ State.reset.WireInv ∧
  State.reset.FramesInv ∧ State.reset.Sound

/-- R26: the eight items hold after every step from a state in which they hold, and so in every state reachable from the
reset registers by any sequence of inputs; and `HUNG` is left only by reset (item 6). -/
def Obligations.ReachableInvariantsAreKept : Prop :=
  (∀ s t : State, s.Inv → step s = .next t → t.Inv) ∧
  (∀ (inp : Inputs) (s t : State), s.Inv → tick inp s = .next t → t.Inv) ∧
  (∀ (ins : List Inputs) (s t : State), ticks ins s.resetRegs = .next t → t.Inv) ∧
  (∀ (inp : Inputs) (s t : State), s.ph = .hung → inp.rst = false → tick inp s = .next t → t.ph = .hung)

/-- R41, R82, R103, R136: under the invariants of R26 every tick keeps the relation between frame, shift register and
data line, and with it the relation between the frame and what the observer has been shown. -/
def Obligations.CallInFlightSendsItsOwnFrame : Prop :=
  ∀ (inp : Inputs) (s t : State), s.Inv → s.ShiftInv → tick inp s = .next t →
    t.ShiftInv ∧ (s.WireInv → t.WireInv)

/-- R18: the counter has `DLY_W` bits; entering a timed phase with dwell N loads N - 1 whole; in the phase a nonzero
counter is decremented; the phase ends exactly at the tick that finds 0; and the counter never grows without a phase
change, so it never wraps. -/
def Obligations.DwellCounterFitsItsRegister : Prop :=
  ∀ (inp : Inputs) (s t : State), inp.rst = false → tick inp s = .next t →
    t.dly.toNat < 2 ^ s.cfg.dlyW ∧
    (∀ n, t.ph ≠ s.ph → t.ph.dwell s.cfg = some n → t.dly.toNat + 1 = n) ∧
    (s.ph.timed = true → s.dly ≠ 0#_ → t.ph = s.ph ∧ t.dly.toNat + 1 = s.dly.toNat) ∧
    (s.ph.timed = true → s.dly = 0#_ → t.ph ≠ s.ph) ∧
    (t.ph = s.ph → t.dly.toNat ≤ s.dly.toNat)

/-- R60, R136: every frame the observer ever sees begins with the control nibble, and none is undefined as long as no
partial frame has been seen. -/
def Obligations.EveryFrameSeenCarriesTheNibble : Prop :=
  ∀ (inp : Inputs) (s t : State), s.Inv → s.WireInv → s.FramesInv → tick inp s = .next t → t.FramesInv

/-- R173, R174, R176: a host that keeps its duties never loses the block in `HUNG` and never makes a partial frame. -/
def Obligations.DutifulHostKeepsTheBlockSound : Prop :=
  ∀ (inp : Inputs) (s t : State), s.Inv → s.WireInv → s.Sound → Dutiful inp s → tick inp s = .next t →
    t.Sound ∧ t.ph ≠ .hung

/-- R136, U1: after a partial frame every later answer of the observer is undefined, for any inputs. -/
def Obligations.ObserverStaysUndefined : Prop :=
  ∀ (ins : List Inputs) (s t : State), s.dac.Lost → ticks ins s = .next t →
    t.dac.Lost ∧ ∃ l, t.dac.frames = s.dac.frames ++ l ∧ ∀ x ∈ l, x = Seen.undefined

/-- R176: a reset while Chip-Select is low and driven, after a number of clock pulses other than 16, is seen as a partial
frame. -/
def Obligations.ResetMidFrameIsAPartialFrame : Prop :=
  ∀ (inp : Inputs) (s : State), s.cfg.wf = true → inp.rst = true → s.en = true → s.csn = false →
    s.dac.bits.length ≠ 16 →
    ∃ t, tick inp s = .next t ∧ t.dac.frames = s.dac.frames ++ [.undefined] ∧ t.dac.Lost ∧ t.dac.bits = []

/-- R134: the waveform of a call, cycle by cycle, from the accepting cycle to the first cycle back in
`IDLE`, whatever is presented meanwhile and whatever the input line does; `ready` is 0 for `busyCycles` cycles. -/
def Obligations.WaveformOfACall : Prop :=
  ∀ (c : Code12) (s u : State) (ins : List Inputs), s.cfg.wf = true → s.ph = .idle → s.en = true → s.len = true →
    s.sck = false → s.csn = true → exec (.writev c) s = .next u → NoReset ins → ins.length = busyCycles s.cfg →
    (s :: trace ins u).map State.waveRow =
      { ph := .idle, csN := true, sck := false, mosi := s.mosi, leN := true }
        :: callRows s.cfg (s.cfg.ctrl ++ c) s.mosi

/-- R134, R183, R184: how many cycles of a call have `ready = 0`, Chip-Select low and Latch-Enable low. -/
def Obligations.CountsOfACall : Prop :=
  ∀ (c : Code12) (s u : State) (ins : List Inputs), s.cfg.wf = true → s.ph = .idle → s.en = true → s.len = true →
    s.sck = false → exec (.writev c) s = .next u → NoReset ins → ins.length = busyCycles s.cfg →
    (trace ins u).countP (fun t => !t.outputs.ready) = busyCycles s.cfg ∧
    (trace ins u).countP (fun t => !t.outputs.csN) = s.cfg.tCss + 32 * s.cfg.tHalf + 2 + s.cfg.tCsh ∧
    (trace ins u).countP (fun t => !t.outputs.leN) = s.cfg.tLew

/-- R41, R42, R134: a call has exactly sixteen rising clock edges, all with Chip-Select low, and the k-th carries frame
bit 16 - k. -/
def Obligations.SixteenPulsesCarryTheFrame : Prop :=
  ∀ (c : Code12) (s u : State) (ins : List Inputs), s.cfg.wf = true → s.ph = .idle → s.en = true → s.len = true →
    s.sck = false → exec (.writev c) s = .next u → NoReset ins → ins.length = busyCycles s.cfg →
    pulses ((trace ins u).map State.lines) = (wireBits (s.cfg.ctrl ++ c)).map fun b => (false, b)

/-- R109, R183: the state after a returned call. -/
def Obligations.StateAfterAReturnedCall : Prop :=
  ∀ (c : Code12) (s u : State) (ins : List Inputs), s.cfg.wf = true → s.ph = .idle → s.en = true → s.len = true →
    s.sck = false → exec (.writev c) s = .next u → NoReset ins → ins.length = busyCycles s.cfg →
    ∃ t, ticks ins u = .next t ∧ t.ph = .idle ∧ t.csn = true ∧ t.sck = false ∧ t.len = true ∧
      t.fr = s.cfg.ctrl ++ c ∧ t.mosi = c.getLsbD 0 ∧ t.bitcnt = 0#4 ∧ t.byteidx = true ∧ t.tc = true ∧
      t.dly = 0#_ ∧ t.en = true ∧
      (∀ j, j < 8 →
        (ins[s.cfg.tCss + 16 * s.cfg.tHalf + 1 + 2 * s.cfg.tHalf * j + s.cfg.tHalf - 1]?).map Inputs.miso
          = some (t.sr.getLsbD (7 - j)))

/-- R136: for a returned call the observer appends exactly one frame, the call's own, and it is at the output. -/
def Obligations.DacReceivesExactlyTheFrame : Prop :=
  ∀ (c : Code12) (s u t : State) (ins : List Inputs), s.cfg.wf = true → s.ph = .idle → s.en = true → s.len = true →
    s.sck = false → s.csn = true → s.dac.bits = [] → s.dac.tainted = false → exec (.writev c) s = .next u →
    NoReset ins → ins.length = busyCycles s.cfg → ticks ins u = .next t →
    t.dac.frames = s.dac.frames ++ [.word (s.cfg.ctrl ++ c)] ∧ t.dac.latched = some (.word (s.cfg.ctrl ++ c)) ∧
    t.dac.bits = [] ∧ t.dac.tainted = false

/-- R114: the order of the line events of a call, with no timing: no event reordered, merged, dropped or repeated,
whatever the parameters are. -/
def Obligations.EventOrderOfACall : Prop :=
  ∀ (c : Code12) (s u : State) (ins : List Inputs), s.cfg.wf = true → s.ph = .idle → s.en = true → s.len = true →
    s.sck = false → exec (.writev c) s = .next u → NoReset ins → ins.length = busyCycles s.cfg →
    changes ((trace ins u).map State.lines) = changes (callEvents (s.cfg.ctrl ++ c) s.mosi)

/-- R81, R82, R88: `exchangeByte` takes exactly `16·T_HALF` ticks, sends the byte's bits most significant first, shifts
in the eight sampled levels, sets `TC`, and touches neither Chip-Select nor Latch-Enable nor the frame. -/
def Obligations.ExchangeByteContract : Prop :=
  ∀ (b : Byte) (s u : State) (ins : List Inputs), s.cfg.wf = true → s.en = true → s.sck = false →
    exec (.tXchg b) s = .next u → NoReset ins → ins.length = 16 * s.cfg.tHalf →
    ∃ t, ticks ins u = .next t ∧ t.ph = .xdone ∧ t.tc = true ∧ t.bitcnt = 0#4 ∧ t.sck = false ∧
      t.mosi = b.getLsbD 0 ∧ t.csn = s.csn ∧ t.len = s.len ∧ t.fr = s.fr ∧ t.en = true ∧
      (∀ j, j < 8 → (ins[2 * s.cfg.tHalf * j + s.cfg.tHalf - 1]?).map Inputs.miso = some (t.sr.getLsbD (7 - j))) ∧
      t.dac.bits = s.dac.bits ++ (if s.csn then [] else byteBits b)

/-- R154, R131, R137: a call on a disabled Transport, with Latch-Enable high, loads the frame, lowers Chip-Select, waits
`T_CSS` and hangs for ever: no clock pulse, nothing seen by the observer, nothing undone. -/
def Obligations.WriteBeforeInitHangsForever : Prop :=
  ∀ (c : Code12) (s u : State) (ins : List Inputs), s.cfg.wf = true → s.ph = .idle → s.en = false → s.len = true →
    exec (.writev c) s = .next u → NoReset ins → s.cfg.tCss ≤ ins.length →
    ticks ins u = .next { s with fr := s.cfg.ctrl ++ c, csn := false, ph := .hung, dly := 0#_ }

/-- R104, R122: a call that finds Latch-Enable asserted deasserts it, holds it high for `T_LEH` ticks, and only then lowers
Chip-Select. -/
def Obligations.LatchFoundAssertedIsNormalised : Prop :=
  ∀ (c : Code12) (s u : State) (ins : List Inputs), s.cfg.wf = true → s.ph = .idle → s.len = false →
    exec (.writev c) s = .next u → NoReset ins →
    (ins.length < s.cfg.tLeh → ∃ t, ticks ins u = .next t ∧ t.ph = .leNorm ∧ t.len = true ∧ t.csn = s.csn) ∧
    (ins.length = s.cfg.tLeh → ∃ t, ticks ins u = .next t ∧ t.ph = .csSetup ∧ t.len = true ∧ t.csn = false ∧
      t.fr = s.cfg.ctrl ++ c ∧ t.dly.toNat = s.cfg.tCss - 1)

/-- R104, R109, R183: a call that finds Latch-Enable asserted still returns, `T_LEH` ticks later than the figure of R183,
with the registers of R109, the received byte included, and sends its own frame. -/
def Obligations.CallFindingLatchAssertedReturns : Prop :=
  ∀ (c : Code12) (s u : State) (ins : List Inputs), s.cfg.wf = true → s.ph = .idle → s.en = true → s.len = false →
    s.sck = false → s.dac.bits = [] → s.dac.tainted = false → exec (.writev c) s = .next u → NoReset ins →
    ins.length = s.cfg.tLeh + busyCycles s.cfg →
    ∃ t, ticks ins u = .next t ∧ t.ph = .idle ∧ t.csn = true ∧ t.sck = false ∧ t.len = true ∧
      t.fr = s.cfg.ctrl ++ c ∧ t.mosi = c.getLsbD 0 ∧ t.bitcnt = 0#4 ∧ t.byteidx = true ∧ t.tc = true ∧
      t.dly = 0#_ ∧ t.en = true ∧
      (∀ j, j < 8 →
        (ins[s.cfg.tLeh + s.cfg.tCss + 16 * s.cfg.tHalf + 1 + 2 * s.cfg.tHalf * j + s.cfg.tHalf - 1]?).map Inputs.miso
          = some (t.sr.getLsbD (7 - j))) ∧
      t.dac.frames = s.dac.frames ++ [.word (s.cfg.ctrl ++ c)] ∧
      t.dac.latched = some (.word (s.cfg.ctrl ++ c))

/-- R50, R137 item 6: two runs whose inputs differ only in `miso` agree in everything but the shift register. -/
def Obligations.InputLineReachesOnlyTheShiftRegister : Prop :=
  ∀ (as bs : List Inputs) (s t : State), s.Inv → List.Forall₂ SameButMiso as bs → ticks as s = .next t →
    ∃ v, ticks bs s = .next v ∧ { v with sr := t.sr } = t

/-- R113: what a call shows at the pins does not depend on what earlier calls left, but for the level of `mosi` during
`CS_SETUP`. -/
def Obligations.CallsAreIndependent : Prop :=
  ∀ (c : Code12) (s s' u u' : State) (ins ins' : List Inputs), s.cfg = s'.cfg → s.cfg.wf = true → s.ph = .idle →
    s'.ph = .idle → s.Inv → s'.Inv → s.en = true → s'.en = true → exec (.writev c) s = .next u →
    exec (.writev c) s' = .next u' → NoReset ins → NoReset ins' → ins.length = busyCycles s.cfg →
    ins'.length = busyCycles s.cfg →
    ((trace ins u).map State.waveRow).drop s.cfg.tCss = ((trace ins' u').map State.waveRow).drop s.cfg.tCss ∧
    ((trace ins u).map fun t => { t.waveRow with mosi := false }) =
      ((trace ins' u').map fun t => { t.waveRow with mosi := false })

/-- R47 item (e): without reset, in a call at most one line changes at a tick, but for `mosi` changing as `sck` falls. -/
def Obligations.AtMostOneLineEventPerTick : Prop :=
  ∀ (inp : Inputs) (s t : State), inp.rst = false → s.ph ≠ .idle → tick inp s = .next t →
    (t.csn ≠ s.csn → t.sck = s.sck ∧ t.mosi = s.mosi ∧ t.len = s.len) ∧
    (t.len ≠ s.len → t.sck = s.sck ∧ t.mosi = s.mosi ∧ t.csn = s.csn) ∧
    (t.sck ≠ s.sck → t.csn = s.csn ∧ t.len = s.len ∧ (t.mosi ≠ s.mosi → t.sck = false))

/-- R71: in the eager host's cycles the next command of the list is presented exactly when `ready = 1`, in order, and
`rst = 0`. -/
def Obligations.EagerHostPresentsInOrder : Prop :=
  ∀ (w : HostWord) (ws : List HostWord) (s t : State), s.host.script = [] → s.host.program = w :: ws →
    s.inputs.rst = false ∧ (s.inputs.cmdValid = true ↔ s.ready = true) ∧ s.inputs.cmd = w ∧
    (step s = .next t → t.host.script = [] ∧ t.host.program = if s.ready then ws else w :: ws)

/-- R186, R131, for the model's host (DESIGN CHOICE, log 2), which gives `rst = 0` once its script is used up: a run that
reaches `HUNG` is never over while no reset is scripted. That a run with cycles still scripted is not over is log 2 too. -/
def Obligations.HungRunIsNeverOver : Prop :=
  ∀ (n : Nat) (s t : State), s.ph = .hung → NoReset s.host.script → Sys2Proof.core.run n s = .next t →
    t.ph = .hung ∧ t.runOver = false

/-- R137 items 3, 4 and 5: from reset, with `EN = 1`, `cs_n` is 0 exactly in the phases from `CS_SETUP` to `CS_HOLD`, and
`le_n` is 1 in every cycle with `ready = 1`; and the run of one list of cycles and then another is the run of the first
followed by the run of the second from the state the first left. -/
def Obligations.LinesFromResetAndRunsCompose : Prop :=
  (∀ (ins : List Inputs) (s t : State), ticks ins s.resetRegs = .next t →
    (t.en = true → (t.outputs.csN = false ↔
      t.ph = .csSetup ∨ t.ph = .shLow ∨ t.ph = .shHigh ∨ t.ph = .xdone ∨ t.ph = .csHold)) ∧
    (t.outputs.ready = true → t.outputs.leN = true)) ∧
  (∀ (first second : List Inputs) (s t : State),
    ticks (first ++ second) s = .next t ↔ ∃ u, ticks first s = .next u ∧ ticks second u = .next t)
end

