-- ==== Sys2Proof/Laws/State.lean ====
section
/-! SUPPORT. One lemma per field per update: what each named operation writes, and that it leaves every other field alone. -/

namespace Sys2Proof.Machine

variable (s : State)

@[simp] theorem State.goto_en (p : Phase) : (s.goto p).en = s.en := rfl
@[simp] theorem State.goto_sck (p : Phase) : (s.goto p).sck = s.sck := rfl
@[simp] theorem State.goto_mosi (p : Phase) : (s.goto p).mosi = s.mosi := rfl
@[simp] theorem State.goto_csn (p : Phase) : (s.goto p).csn = s.csn := rfl
@[simp] theorem State.goto_len (p : Phase) : (s.goto p).len = s.len := rfl
@[simp] theorem State.goto_sr (p : Phase) : (s.goto p).sr = s.sr := rfl
@[simp] theorem State.goto_fr (p : Phase) : (s.goto p).fr = s.fr := rfl
@[simp] theorem State.goto_bitcnt (p : Phase) : (s.goto p).bitcnt = s.bitcnt := rfl
@[simp] theorem State.goto_byteidx (p : Phase) : (s.goto p).byteidx = s.byteidx := rfl
@[simp] theorem State.goto_ph (p : Phase) : (s.goto p).ph = p := rfl
@[simp] theorem State.goto_dly (p : Phase) : (s.goto p).dly = s.dly := rfl
@[simp] theorem State.goto_tc (p : Phase) : (s.goto p).tc = s.tc := rfl
@[simp] theorem State.goto_cfg (p : Phase) : (s.goto p).cfg = s.cfg := rfl
@[simp] theorem State.goto_host (p : Phase) : (s.goto p).host = s.host := rfl
@[simp] theorem State.goto_draw (p : Phase) : (s.goto p).draw = s.draw := rfl
@[simp] theorem State.goto_dac (p : Phase) : (s.goto p).dac = s.dac := rfl

@[simp] theorem State.enter_en (p : Phase) (n : Nat) : (s.enter p n).en = s.en := rfl
@[simp] theorem State.enter_sck (p : Phase) (n : Nat) : (s.enter p n).sck = s.sck := rfl
@[simp] theorem State.enter_mosi (p : Phase) (n : Nat) : (s.enter p n).mosi = s.mosi := rfl
@[simp] theorem State.enter_csn (p : Phase) (n : Nat) : (s.enter p n).csn = s.csn := rfl
@[simp] theorem State.enter_len (p : Phase) (n : Nat) : (s.enter p n).len = s.len := rfl
@[simp] theorem State.enter_sr (p : Phase) (n : Nat) : (s.enter p n).sr = s.sr := rfl
@[simp] theorem State.enter_fr (p : Phase) (n : Nat) : (s.enter p n).fr = s.fr := rfl
@[simp] theorem State.enter_bitcnt (p : Phase) (n : Nat) : (s.enter p n).bitcnt = s.bitcnt := rfl
@[simp] theorem State.enter_byteidx (p : Phase) (n : Nat) : (s.enter p n).byteidx = s.byteidx := rfl
@[simp] theorem State.enter_ph (p : Phase) (n : Nat) : (s.enter p n).ph = p := rfl
@[simp] theorem State.enter_dly (p : Phase) (n : Nat) : (s.enter p n).dly = BitVec.ofNat _ (n - 1) := rfl
@[simp] theorem State.enter_tc (p : Phase) (n : Nat) : (s.enter p n).tc = s.tc := rfl
@[simp] theorem State.enter_cfg (p : Phase) (n : Nat) : (s.enter p n).cfg = s.cfg := rfl
@[simp] theorem State.enter_host (p : Phase) (n : Nat) : (s.enter p n).host = s.host := rfl
@[simp] theorem State.enter_draw (p : Phase) (n : Nat) : (s.enter p n).draw = s.draw := rfl
@[simp] theorem State.enter_dac (p : Phase) (n : Nat) : (s.enter p n).dac = s.dac := rfl

@[simp] theorem State.countDown_en : (s.countDown).en = s.en := rfl
@[simp] theorem State.countDown_sck : (s.countDown).sck = s.sck := rfl
@[simp] theorem State.countDown_mosi : (s.countDown).mosi = s.mosi := rfl
@[simp] theorem State.countDown_csn : (s.countDown).csn = s.csn := rfl
@[simp] theorem State.countDown_len : (s.countDown).len = s.len := rfl
@[simp] theorem State.countDown_sr : (s.countDown).sr = s.sr := rfl
@[simp] theorem State.countDown_fr : (s.countDown).fr = s.fr := rfl
@[simp] theorem State.countDown_bitcnt : (s.countDown).bitcnt = s.bitcnt := rfl
@[simp] theorem State.countDown_byteidx : (s.countDown).byteidx = s.byteidx := rfl
@[simp] theorem State.countDown_ph : (s.countDown).ph = s.ph := rfl
@[simp] theorem State.countDown_dly : (s.countDown).dly = s.dly - 1#_ := rfl
@[simp] theorem State.countDown_tc : (s.countDown).tc = s.tc := rfl
@[simp] theorem State.countDown_cfg : (s.countDown).cfg = s.cfg := rfl
@[simp] theorem State.countDown_host : (s.countDown).host = s.host := rfl
@[simp] theorem State.countDown_draw : (s.countDown).draw = s.draw := rfl
@[simp] theorem State.countDown_dac : (s.countDown).dac = s.dac := rfl

@[simp] theorem State.initBus_en : (s.initBus).en = true := rfl
@[simp] theorem State.initBus_sck : (s.initBus).sck = false := rfl
@[simp] theorem State.initBus_mosi : (s.initBus).mosi = s.mosi := rfl
@[simp] theorem State.initBus_csn : (s.initBus).csn = true := rfl
@[simp] theorem State.initBus_len : (s.initBus).len = s.len := rfl
@[simp] theorem State.initBus_sr : (s.initBus).sr = s.sr := rfl
@[simp] theorem State.initBus_fr : (s.initBus).fr = s.fr := rfl
@[simp] theorem State.initBus_bitcnt : (s.initBus).bitcnt = s.bitcnt := rfl
@[simp] theorem State.initBus_byteidx : (s.initBus).byteidx = s.byteidx := rfl
@[simp] theorem State.initBus_ph : (s.initBus).ph = s.ph := rfl
@[simp] theorem State.initBus_dly : (s.initBus).dly = s.dly := rfl
@[simp] theorem State.initBus_tc : (s.initBus).tc = s.tc := rfl
@[simp] theorem State.initBus_cfg : (s.initBus).cfg = s.cfg := rfl
@[simp] theorem State.initBus_host : (s.initBus).host = s.host := rfl
@[simp] theorem State.initBus_draw : (s.initBus).draw = s.draw := rfl
@[simp] theorem State.initBus_dac : (s.initBus).dac = s.dac := rfl

@[simp] theorem State.assertSelect_en : (s.assertSelect).en = s.en := rfl
@[simp] theorem State.assertSelect_sck : (s.assertSelect).sck = s.sck := rfl
@[simp] theorem State.assertSelect_mosi : (s.assertSelect).mosi = s.mosi := rfl
@[simp] theorem State.assertSelect_csn : (s.assertSelect).csn = false := rfl
@[simp] theorem State.assertSelect_len : (s.assertSelect).len = s.len := rfl
@[simp] theorem State.assertSelect_sr : (s.assertSelect).sr = s.sr := rfl
@[simp] theorem State.assertSelect_fr : (s.assertSelect).fr = s.fr := rfl
@[simp] theorem State.assertSelect_bitcnt : (s.assertSelect).bitcnt = s.bitcnt := rfl
@[simp] theorem State.assertSelect_byteidx : (s.assertSelect).byteidx = s.byteidx := rfl
@[simp] theorem State.assertSelect_ph : (s.assertSelect).ph = s.ph := rfl
@[simp] theorem State.assertSelect_dly : (s.assertSelect).dly = s.dly := rfl
@[simp] theorem State.assertSelect_tc : (s.assertSelect).tc = s.tc := rfl
@[simp] theorem State.assertSelect_cfg : (s.assertSelect).cfg = s.cfg := rfl
@[simp] theorem State.assertSelect_host : (s.assertSelect).host = s.host := rfl
@[simp] theorem State.assertSelect_draw : (s.assertSelect).draw = s.draw := rfl
@[simp] theorem State.assertSelect_dac : (s.assertSelect).dac = s.dac := rfl

@[simp] theorem State.deassertSelect_en : (s.deassertSelect).en = s.en := rfl
@[simp] theorem State.deassertSelect_sck : (s.deassertSelect).sck = s.sck := rfl
@[simp] theorem State.deassertSelect_mosi : (s.deassertSelect).mosi = s.mosi := rfl
@[simp] theorem State.deassertSelect_csn : (s.deassertSelect).csn = true := rfl
@[simp] theorem State.deassertSelect_len : (s.deassertSelect).len = s.len := rfl
@[simp] theorem State.deassertSelect_sr : (s.deassertSelect).sr = s.sr := rfl
@[simp] theorem State.deassertSelect_fr : (s.deassertSelect).fr = s.fr := rfl
@[simp] theorem State.deassertSelect_bitcnt : (s.deassertSelect).bitcnt = s.bitcnt := rfl
@[simp] theorem State.deassertSelect_byteidx : (s.deassertSelect).byteidx = s.byteidx := rfl
@[simp] theorem State.deassertSelect_ph : (s.deassertSelect).ph = s.ph := rfl
@[simp] theorem State.deassertSelect_dly : (s.deassertSelect).dly = s.dly := rfl
@[simp] theorem State.deassertSelect_tc : (s.deassertSelect).tc = s.tc := rfl
@[simp] theorem State.deassertSelect_cfg : (s.deassertSelect).cfg = s.cfg := rfl
@[simp] theorem State.deassertSelect_host : (s.deassertSelect).host = s.host := rfl
@[simp] theorem State.deassertSelect_draw : (s.deassertSelect).draw = s.draw := rfl
@[simp] theorem State.deassertSelect_dac : (s.deassertSelect).dac = s.dac := rfl

@[simp] theorem State.assertLatch_en : (s.assertLatch).en = s.en := rfl
@[simp] theorem State.assertLatch_sck : (s.assertLatch).sck = s.sck := rfl
@[simp] theorem State.assertLatch_mosi : (s.assertLatch).mosi = s.mosi := rfl
@[simp] theorem State.assertLatch_csn : (s.assertLatch).csn = s.csn := rfl
@[simp] theorem State.assertLatch_len : (s.assertLatch).len = false := rfl
@[simp] theorem State.assertLatch_sr : (s.assertLatch).sr = s.sr := rfl
@[simp] theorem State.assertLatch_fr : (s.assertLatch).fr = s.fr := rfl
@[simp] theorem State.assertLatch_bitcnt : (s.assertLatch).bitcnt = s.bitcnt := rfl
@[simp] theorem State.assertLatch_byteidx : (s.assertLatch).byteidx = s.byteidx := rfl
@[simp] theorem State.assertLatch_ph : (s.assertLatch).ph = s.ph := rfl
@[simp] theorem State.assertLatch_dly : (s.assertLatch).dly = s.dly := rfl
@[simp] theorem State.assertLatch_tc : (s.assertLatch).tc = s.tc := rfl
@[simp] theorem State.assertLatch_cfg : (s.assertLatch).cfg = s.cfg := rfl
@[simp] theorem State.assertLatch_host : (s.assertLatch).host = s.host := rfl
@[simp] theorem State.assertLatch_draw : (s.assertLatch).draw = s.draw := rfl
@[simp] theorem State.assertLatch_dac : (s.assertLatch).dac = s.dac := rfl

@[simp] theorem State.deassertLatch_en : (s.deassertLatch).en = s.en := rfl
@[simp] theorem State.deassertLatch_sck : (s.deassertLatch).sck = s.sck := rfl
@[simp] theorem State.deassertLatch_mosi : (s.deassertLatch).mosi = s.mosi := rfl
@[simp] theorem State.deassertLatch_csn : (s.deassertLatch).csn = s.csn := rfl
@[simp] theorem State.deassertLatch_len : (s.deassertLatch).len = true := rfl
@[simp] theorem State.deassertLatch_sr : (s.deassertLatch).sr = s.sr := rfl
@[simp] theorem State.deassertLatch_fr : (s.deassertLatch).fr = s.fr := rfl
@[simp] theorem State.deassertLatch_bitcnt : (s.deassertLatch).bitcnt = s.bitcnt := rfl
@[simp] theorem State.deassertLatch_byteidx : (s.deassertLatch).byteidx = s.byteidx := rfl
@[simp] theorem State.deassertLatch_ph : (s.deassertLatch).ph = s.ph := rfl
@[simp] theorem State.deassertLatch_dly : (s.deassertLatch).dly = s.dly := rfl
@[simp] theorem State.deassertLatch_tc : (s.deassertLatch).tc = s.tc := rfl
@[simp] theorem State.deassertLatch_cfg : (s.deassertLatch).cfg = s.cfg := rfl
@[simp] theorem State.deassertLatch_host : (s.deassertLatch).host = s.host := rfl
@[simp] theorem State.deassertLatch_draw : (s.deassertLatch).draw = s.draw := rfl
@[simp] theorem State.deassertLatch_dac : (s.deassertLatch).dac = s.dac := rfl

@[simp] theorem State.loadFrame_en (f : Frame) : (s.loadFrame f).en = s.en := rfl
@[simp] theorem State.loadFrame_sck (f : Frame) : (s.loadFrame f).sck = s.sck := rfl
@[simp] theorem State.loadFrame_mosi (f : Frame) : (s.loadFrame f).mosi = s.mosi := rfl
@[simp] theorem State.loadFrame_csn (f : Frame) : (s.loadFrame f).csn = s.csn := rfl
@[simp] theorem State.loadFrame_len (f : Frame) : (s.loadFrame f).len = s.len := rfl
@[simp] theorem State.loadFrame_sr (f : Frame) : (s.loadFrame f).sr = s.sr := rfl
@[simp] theorem State.loadFrame_fr (f : Frame) : (s.loadFrame f).fr = f := rfl
@[simp] theorem State.loadFrame_bitcnt (f : Frame) : (s.loadFrame f).bitcnt = s.bitcnt := rfl
@[simp] theorem State.loadFrame_byteidx (f : Frame) : (s.loadFrame f).byteidx = s.byteidx := rfl
@[simp] theorem State.loadFrame_ph (f : Frame) : (s.loadFrame f).ph = s.ph := rfl
@[simp] theorem State.loadFrame_dly (f : Frame) : (s.loadFrame f).dly = s.dly := rfl
@[simp] theorem State.loadFrame_tc (f : Frame) : (s.loadFrame f).tc = s.tc := rfl
@[simp] theorem State.loadFrame_cfg (f : Frame) : (s.loadFrame f).cfg = s.cfg := rfl
@[simp] theorem State.loadFrame_host (f : Frame) : (s.loadFrame f).host = s.host := rfl
@[simp] theorem State.loadFrame_draw (f : Frame) : (s.loadFrame f).draw = s.draw := rfl
@[simp] theorem State.loadFrame_dac (f : Frame) : (s.loadFrame f).dac = s.dac := rfl

@[simp] theorem State.loadByte_en (b : Byte) : (s.loadByte b).en = s.en := rfl
@[simp] theorem State.loadByte_sck (b : Byte) : (s.loadByte b).sck = s.sck := rfl
@[simp] theorem State.loadByte_mosi (b : Byte) : (s.loadByte b).mosi = b.msb := rfl
@[simp] theorem State.loadByte_csn (b : Byte) : (s.loadByte b).csn = s.csn := rfl
@[simp] theorem State.loadByte_len (b : Byte) : (s.loadByte b).len = s.len := rfl
@[simp] theorem State.loadByte_sr (b : Byte) : (s.loadByte b).sr = b := rfl
@[simp] theorem State.loadByte_fr (b : Byte) : (s.loadByte b).fr = s.fr := rfl
@[simp] theorem State.loadByte_bitcnt (b : Byte) : (s.loadByte b).bitcnt = 8#4 := rfl
@[simp] theorem State.loadByte_byteidx (b : Byte) : (s.loadByte b).byteidx = s.byteidx := rfl
@[simp] theorem State.loadByte_ph (b : Byte) : (s.loadByte b).ph = s.ph := rfl
@[simp] theorem State.loadByte_dly (b : Byte) : (s.loadByte b).dly = s.dly := rfl
@[simp] theorem State.loadByte_tc (b : Byte) : (s.loadByte b).tc = s.tc := rfl
@[simp] theorem State.loadByte_cfg (b : Byte) : (s.loadByte b).cfg = s.cfg := rfl
@[simp] theorem State.loadByte_host (b : Byte) : (s.loadByte b).host = s.host := rfl
@[simp] theorem State.loadByte_draw (b : Byte) : (s.loadByte b).draw = s.draw := rfl
@[simp] theorem State.loadByte_dac (b : Byte) : (s.loadByte b).dac = s.dac := rfl

@[simp] theorem State.setByteIdx_en (idx : Level) : (s.setByteIdx idx).en = s.en := rfl
@[simp] theorem State.setByteIdx_sck (idx : Level) : (s.setByteIdx idx).sck = s.sck := rfl
@[simp] theorem State.setByteIdx_mosi (idx : Level) : (s.setByteIdx idx).mosi = s.mosi := rfl
@[simp] theorem State.setByteIdx_csn (idx : Level) : (s.setByteIdx idx).csn = s.csn := rfl
@[simp] theorem State.setByteIdx_len (idx : Level) : (s.setByteIdx idx).len = s.len := rfl
@[simp] theorem State.setByteIdx_sr (idx : Level) : (s.setByteIdx idx).sr = s.sr := rfl
@[simp] theorem State.setByteIdx_fr (idx : Level) : (s.setByteIdx idx).fr = s.fr := rfl
@[simp] theorem State.setByteIdx_bitcnt (idx : Level) : (s.setByteIdx idx).bitcnt = s.bitcnt := rfl
@[simp] theorem State.setByteIdx_byteidx (idx : Level) : (s.setByteIdx idx).byteidx = idx := rfl
@[simp] theorem State.setByteIdx_ph (idx : Level) : (s.setByteIdx idx).ph = s.ph := rfl
@[simp] theorem State.setByteIdx_dly (idx : Level) : (s.setByteIdx idx).dly = s.dly := rfl
@[simp] theorem State.setByteIdx_tc (idx : Level) : (s.setByteIdx idx).tc = s.tc := rfl
@[simp] theorem State.setByteIdx_cfg (idx : Level) : (s.setByteIdx idx).cfg = s.cfg := rfl
@[simp] theorem State.setByteIdx_host (idx : Level) : (s.setByteIdx idx).host = s.host := rfl
@[simp] theorem State.setByteIdx_draw (idx : Level) : (s.setByteIdx idx).draw = s.draw := rfl
@[simp] theorem State.setByteIdx_dac (idx : Level) : (s.setByteIdx idx).dac = s.dac := rfl

@[simp] theorem State.setTc_en : (s.setTc).en = s.en := rfl
@[simp] theorem State.setTc_sck : (s.setTc).sck = s.sck := rfl
@[simp] theorem State.setTc_mosi : (s.setTc).mosi = s.mosi := rfl
@[simp] theorem State.setTc_csn : (s.setTc).csn = s.csn := rfl
@[simp] theorem State.setTc_len : (s.setTc).len = s.len := rfl
@[simp] theorem State.setTc_sr : (s.setTc).sr = s.sr := rfl
@[simp] theorem State.setTc_fr : (s.setTc).fr = s.fr := rfl
@[simp] theorem State.setTc_bitcnt : (s.setTc).bitcnt = s.bitcnt := rfl
@[simp] theorem State.setTc_byteidx : (s.setTc).byteidx = s.byteidx := rfl
@[simp] theorem State.setTc_ph : (s.setTc).ph = s.ph := rfl
@[simp] theorem State.setTc_dly : (s.setTc).dly = s.dly := rfl
@[simp] theorem State.setTc_tc : (s.setTc).tc = true := rfl
@[simp] theorem State.setTc_cfg : (s.setTc).cfg = s.cfg := rfl
@[simp] theorem State.setTc_host : (s.setTc).host = s.host := rfl
@[simp] theorem State.setTc_draw : (s.setTc).draw = s.draw := rfl
@[simp] theorem State.setTc_dac : (s.setTc).dac = s.dac := rfl

@[simp] theorem State.clearTc_en : (s.clearTc).en = s.en := rfl
@[simp] theorem State.clearTc_sck : (s.clearTc).sck = s.sck := rfl
@[simp] theorem State.clearTc_mosi : (s.clearTc).mosi = s.mosi := rfl
@[simp] theorem State.clearTc_csn : (s.clearTc).csn = s.csn := rfl
@[simp] theorem State.clearTc_len : (s.clearTc).len = s.len := rfl
@[simp] theorem State.clearTc_sr : (s.clearTc).sr = s.sr := rfl
@[simp] theorem State.clearTc_fr : (s.clearTc).fr = s.fr := rfl
@[simp] theorem State.clearTc_bitcnt : (s.clearTc).bitcnt = s.bitcnt := rfl
@[simp] theorem State.clearTc_byteidx : (s.clearTc).byteidx = s.byteidx := rfl
@[simp] theorem State.clearTc_ph : (s.clearTc).ph = s.ph := rfl
@[simp] theorem State.clearTc_dly : (s.clearTc).dly = s.dly := rfl
@[simp] theorem State.clearTc_tc : (s.clearTc).tc = false := rfl
@[simp] theorem State.clearTc_cfg : (s.clearTc).cfg = s.cfg := rfl
@[simp] theorem State.clearTc_host : (s.clearTc).host = s.host := rfl
@[simp] theorem State.clearTc_draw : (s.clearTc).draw = s.draw := rfl
@[simp] theorem State.clearTc_dac : (s.clearTc).dac = s.dac := rfl

@[simp] theorem State.hang_en : (s.hang).en = s.en := rfl
@[simp] theorem State.hang_sck : (s.hang).sck = s.sck := rfl
@[simp] theorem State.hang_mosi : (s.hang).mosi = s.mosi := rfl
@[simp] theorem State.hang_csn : (s.hang).csn = s.csn := rfl
@[simp] theorem State.hang_len : (s.hang).len = s.len := rfl
@[simp] theorem State.hang_sr : (s.hang).sr = s.sr := rfl
@[simp] theorem State.hang_fr : (s.hang).fr = s.fr := rfl
@[simp] theorem State.hang_bitcnt : (s.hang).bitcnt = s.bitcnt := rfl
@[simp] theorem State.hang_byteidx : (s.hang).byteidx = s.byteidx := rfl
@[simp] theorem State.hang_ph : (s.hang).ph = .hung := rfl
@[simp] theorem State.hang_dly : (s.hang).dly = s.dly := rfl
@[simp] theorem State.hang_tc : (s.hang).tc = s.tc := rfl
@[simp] theorem State.hang_cfg : (s.hang).cfg = s.cfg := rfl
@[simp] theorem State.hang_host : (s.hang).host = s.host := rfl
@[simp] theorem State.hang_draw : (s.hang).draw = s.draw := rfl
@[simp] theorem State.hang_dac : (s.hang).dac = s.dac := rfl

@[simp] theorem State.riseClock_en (m : Level) : (s.riseClock m).en = s.en := rfl
@[simp] theorem State.riseClock_sck (m : Level) : (s.riseClock m).sck = true := rfl
@[simp] theorem State.riseClock_mosi (m : Level) : (s.riseClock m).mosi = s.mosi := rfl
@[simp] theorem State.riseClock_csn (m : Level) : (s.riseClock m).csn = s.csn := rfl
@[simp] theorem State.riseClock_len (m : Level) : (s.riseClock m).len = s.len := rfl
@[simp] theorem State.riseClock_sr (m : Level) : (s.riseClock m).sr = shiftIn s.sr m := rfl
@[simp] theorem State.riseClock_fr (m : Level) : (s.riseClock m).fr = s.fr := rfl
@[simp] theorem State.riseClock_bitcnt (m : Level) : (s.riseClock m).bitcnt = s.bitcnt := rfl
@[simp] theorem State.riseClock_byteidx (m : Level) : (s.riseClock m).byteidx = s.byteidx := rfl
@[simp] theorem State.riseClock_ph (m : Level) : (s.riseClock m).ph = s.ph := rfl
@[simp] theorem State.riseClock_dly (m : Level) : (s.riseClock m).dly = s.dly := rfl
@[simp] theorem State.riseClock_tc (m : Level) : (s.riseClock m).tc = s.tc := rfl
@[simp] theorem State.riseClock_cfg (m : Level) : (s.riseClock m).cfg = s.cfg := rfl
@[simp] theorem State.riseClock_host (m : Level) : (s.riseClock m).host = s.host := rfl
@[simp] theorem State.riseClock_draw (m : Level) : (s.riseClock m).draw = s.draw := rfl
@[simp] theorem State.riseClock_dac (m : Level) : (s.riseClock m).dac = s.dac := rfl

@[simp] theorem State.fallClock_en : (s.fallClock).en = s.en := rfl
@[simp] theorem State.fallClock_sck : (s.fallClock).sck = false := rfl
@[simp] theorem State.fallClock_mosi : (s.fallClock).mosi = s.mosi := rfl
@[simp] theorem State.fallClock_csn : (s.fallClock).csn = s.csn := rfl
@[simp] theorem State.fallClock_len : (s.fallClock).len = s.len := rfl
@[simp] theorem State.fallClock_sr : (s.fallClock).sr = s.sr := rfl
@[simp] theorem State.fallClock_fr : (s.fallClock).fr = s.fr := rfl
@[simp] theorem State.fallClock_bitcnt : (s.fallClock).bitcnt = s.bitcnt - 1#4 := rfl
@[simp] theorem State.fallClock_byteidx : (s.fallClock).byteidx = s.byteidx := rfl
@[simp] theorem State.fallClock_ph : (s.fallClock).ph = s.ph := rfl
@[simp] theorem State.fallClock_dly : (s.fallClock).dly = s.dly := rfl
@[simp] theorem State.fallClock_tc : (s.fallClock).tc = s.tc := rfl
@[simp] theorem State.fallClock_cfg : (s.fallClock).cfg = s.cfg := rfl
@[simp] theorem State.fallClock_host : (s.fallClock).host = s.host := rfl
@[simp] theorem State.fallClock_draw : (s.fallClock).draw = s.draw := rfl
@[simp] theorem State.fallClock_dac : (s.fallClock).dac = s.dac := rfl

@[simp] theorem State.driveNextBit_en : (s.driveNextBit).en = s.en := rfl
@[simp] theorem State.driveNextBit_sck : (s.driveNextBit).sck = s.sck := rfl
@[simp] theorem State.driveNextBit_mosi : (s.driveNextBit).mosi = s.sr.msb := rfl
@[simp] theorem State.driveNextBit_csn : (s.driveNextBit).csn = s.csn := rfl
@[simp] theorem State.driveNextBit_len : (s.driveNextBit).len = s.len := rfl
@[simp] theorem State.driveNextBit_sr : (s.driveNextBit).sr = s.sr := rfl
@[simp] theorem State.driveNextBit_fr : (s.driveNextBit).fr = s.fr := rfl
@[simp] theorem State.driveNextBit_bitcnt : (s.driveNextBit).bitcnt = s.bitcnt := rfl
@[simp] theorem State.driveNextBit_byteidx : (s.driveNextBit).byteidx = s.byteidx := rfl
@[simp] theorem State.driveNextBit_ph : (s.driveNextBit).ph = s.ph := rfl
@[simp] theorem State.driveNextBit_dly : (s.driveNextBit).dly = s.dly := rfl
@[simp] theorem State.driveNextBit_tc : (s.driveNextBit).tc = s.tc := rfl
@[simp] theorem State.driveNextBit_cfg : (s.driveNextBit).cfg = s.cfg := rfl
@[simp] theorem State.driveNextBit_host : (s.driveNextBit).host = s.host := rfl
@[simp] theorem State.driveNextBit_draw : (s.driveNextBit).draw = s.draw := rfl
@[simp] theorem State.driveNextBit_dac : (s.driveNextBit).dac = s.dac := rfl

@[simp] theorem State.resetRegs_en : (s.resetRegs).en = false := rfl
@[simp] theorem State.resetRegs_sck : (s.resetRegs).sck = false := rfl
@[simp] theorem State.resetRegs_mosi : (s.resetRegs).mosi = false := rfl
@[simp] theorem State.resetRegs_csn : (s.resetRegs).csn = true := rfl
@[simp] theorem State.resetRegs_len : (s.resetRegs).len = true := rfl
@[simp] theorem State.resetRegs_sr : (s.resetRegs).sr = 0x00#8 := rfl
@[simp] theorem State.resetRegs_fr : (s.resetRegs).fr = 0x0000#16 := rfl
@[simp] theorem State.resetRegs_bitcnt : (s.resetRegs).bitcnt = 0#4 := rfl
@[simp] theorem State.resetRegs_byteidx : (s.resetRegs).byteidx = false := rfl
@[simp] theorem State.resetRegs_ph : (s.resetRegs).ph = .idle := rfl
@[simp] theorem State.resetRegs_dly : (s.resetRegs).dly = 0#_ := rfl
@[simp] theorem State.resetRegs_tc : (s.resetRegs).tc = false := rfl
@[simp] theorem State.resetRegs_cfg : (s.resetRegs).cfg = s.cfg := rfl
@[simp] theorem State.resetRegs_host : (s.resetRegs).host = s.host := rfl
@[simp] theorem State.resetRegs_draw : (s.resetRegs).draw = s.draw := rfl
@[simp] theorem State.resetRegs_dac : (s.resetRegs).dac = s.dac := rfl

@[simp] theorem State.advanceHost_en : (s.advanceHost).en = s.en := rfl
@[simp] theorem State.advanceHost_sck : (s.advanceHost).sck = s.sck := rfl
@[simp] theorem State.advanceHost_mosi : (s.advanceHost).mosi = s.mosi := rfl
@[simp] theorem State.advanceHost_csn : (s.advanceHost).csn = s.csn := rfl
@[simp] theorem State.advanceHost_len : (s.advanceHost).len = s.len := rfl
@[simp] theorem State.advanceHost_sr : (s.advanceHost).sr = s.sr := rfl
@[simp] theorem State.advanceHost_fr : (s.advanceHost).fr = s.fr := rfl
@[simp] theorem State.advanceHost_bitcnt : (s.advanceHost).bitcnt = s.bitcnt := rfl
@[simp] theorem State.advanceHost_byteidx : (s.advanceHost).byteidx = s.byteidx := rfl
@[simp] theorem State.advanceHost_ph : (s.advanceHost).ph = s.ph := rfl
@[simp] theorem State.advanceHost_dly : (s.advanceHost).dly = s.dly := rfl
@[simp] theorem State.advanceHost_tc : (s.advanceHost).tc = s.tc := rfl
@[simp] theorem State.advanceHost_cfg : (s.advanceHost).cfg = s.cfg := rfl
@[simp] theorem State.advanceHost_host : (s.advanceHost).host = s.host.advance s.ready := rfl
@[simp] theorem State.advanceHost_draw : (s.advanceHost).draw = s.draw + 1 := rfl
@[simp] theorem State.advanceHost_dac : (s.advanceHost).dac = s.dac := rfl

end Sys2Proof.Machine
end

