-- ==== Sys2Proof/Laws/Ops.lean ====
section
/-! SUPPORT. What each shared operation can do, once: continuation, dwell, exchange start, the operand forms, the observer. -/

namespace Sys2Proof.Machine

@[simp] theorem onNext_next (s : State) (f : State → State) : onNext (.next s) f = .next (f s) := rfl
@[simp] theorem onNext_refused (r : Refusal) (f : State → State) : onNext (.refused r) f = .refused r := rfl

/-- `onNext` answers a next state exactly when what it continues does. -/
theorem onNext_eq_next {o : Host.Outcome State Fault Refusal} {f : State → State} {t : State} :
    onNext o f = .next t ↔ ∃ u, o = .next u ∧ t = f u := by
  cases o with
  | next u => simp [onNext, eq_comm]
  | fault r => simp [onNext]
  | refused r => simp [onNext]

/-- A dwell that is not over only counts down (R132). -/
theorem dwell_stay {s : State} (h : s.dly ≠ 0#_) (exit : State → Host.Outcome State Fault Refusal) :
    dwell s exit = .next s.countDown := if_neg h

/-- A dwell that is over leaves (R132). -/
theorem dwell_exit {s : State} (h : s.dly = 0#_) (exit : State → Host.Outcome State Fault Refusal) :
    dwell s exit = exit s := if_pos h

/-- A dwell that R5 allows is loaded whole: `DLY_W` bits hold `N - 1` (R5, R18). -/
theorem Config.dwellOk_load {c : Config} {n : Nat} (h : c.dwellOk n = true) :
    (BitVec.ofNat c.dlyW (n - 1)).toNat = n - 1 := by
  simp only [Config.dwellOk, Bool.and_eq_true, decide_eq_true_eq] at h
  rw [BitVec.toNat_ofNat]
  exact Nat.mod_eq_of_lt (by omega)

/-- A counter that is not 0 counts down without wrapping (R18, R132). -/
theorem State.countDown_dly_toNat {s : State} (h : s.dly ≠ 0#_) : s.countDown.dly.toNat + 1 = s.dly.toNat := by
  have hpos : s.dly.toNat ≠ 0 := fun h0 => h (BitVec.eq_of_toNat_eq (by simpa using h0))
  have hw : 1 < 2 ^ s.cfg.dlyW := by have := s.dly.isLt; omega
  have h1 : (1#s.cfg.dlyW).toNat = 1 := by rw [BitVec.toNat_ofNat]; exact Nat.mod_eq_of_lt hw
  have hsub : (s.dly - 1#s.cfg.dlyW).toNat = s.dly.toNat - (1#s.cfg.dlyW).toNat :=
    BitVec.toNat_sub_of_le (BitVec.le_def.mpr (by omega))
  show (s.dly - 1#s.cfg.dlyW).toNat + 1 = s.dly.toNat
  omega

/-- With the Transport enabled an exchange starts (R124). -/
theorem State.startXchg_enabled {s : State} (h : s.en = true) (b : Byte) (idx : Level) :
    s.startXchg b idx = ((s.loadByte b).clearTc.setByteIdx idx).enter .shLow s.cfg.tHalf := if_pos h

/-- With the Transport disabled it hangs (R83). -/
theorem State.startXchg_disabled {s : State} (h : s.en = false) (b : Byte) (idx : Level) :
    s.startXchg b idx = s.hang := by simp [State.startXchg, h]

/-- Every instruction answers a next state: the block raises nothing (R150). -/
theorem exec_next (i : Instr) (s : State) : ∃ t, exec i s = .next t := by
  cases i with
  | writev code =>
    cases h : s.len
    · exact ⟨_, by simp only [exec, execWritev, h]; rfl⟩
    · exact ⟨_, by simp only [exec, execWritev, h]; rfl⟩
  | _ => exact ⟨_, rfl⟩

/-- The frame in one concatenation (R103). -/
theorem composeFrame_eq (ctrl : Nibble) (code : Code12) : composeFrame ctrl code = ctrl ++ code := by
  apply BitVec.eq_of_getLsbD_eq
  intro i hi
  simp only [composeFrame, composeHigh, composeLow, BitVec.getLsbD_append, BitVec.getLsbD_extractLsb']
  by_cases h8 : i < 8
  · have : i < 12 := by omega
    simp [h8, this]
  · by_cases h12 : i < 12
    · have h4 : i - 8 < 4 := by omega
      have h9 : 8 + (i - 8) = i := by omega
      simp [h8, h12, h4, h9]
    · have h4 : ¬ i - 8 < 4 := by omega
      have h9 : i - 8 - 4 = i - 12 := by omega
      simp [h8, h12, h4, h9]

/-- A shift moves bit `i` to bit `i + 1` and takes the sampled level into bit 0 (R82). -/
theorem shiftIn_getLsbD (sr : Byte) (m : Level) (i : Nat) :
    (shiftIn sr m).getLsbD i = if i = 0 then m else decide (i < 8) && sr.getLsbD (i - 1) := by
  simp only [shiftIn, BitVec.getLsbD_append, BitVec.getLsbD_extractLsb']
  rcases i with _ | i
  · simp
  · have h1 : ¬ i + 1 < 1 := by omega
    have h2 : decide (i < 7) = decide (i + 1 < 8) := decide_eq_decide.mpr (by omega)
    simp [h1, h2]

/-- A shift as arithmetic: twice the register, dropping bit 7, plus the sampled level (R82). -/
theorem shiftIn_toNat (sr : Byte) (m : Level) : (shiftIn sr m).toNat = 2 * (sr.toNat % 128) + m.toNat := by
  have h : (BitVec.ofBool m).toNat < 2 := by cases m <;> decide
  simp only [shiftIn, BitVec.toNat_append, BitVec.extractLsb'_toNat]
  rw [Nat.shiftLeft_eq, ← Nat.mul_comm, ← Nat.two_pow_add_eq_or_of_lt h]
  simp [BitVec.toNat_ofBool]

/-- The frame's bit under the `k`-th clock pulse, counted from 0 (R41). -/
theorem wireBits_getElem (f : Frame) (k : Nat) (h : k < (wireBits f).length) :
    (wireBits f)[k] = f.getLsbD (15 - k) := by
  simp [wireBits]

@[simp] theorem wireBits_length (f : Frame) : (wireBits f).length = 16 := by simp [wireBits]

/-- The observer reads back the frame whose bits it was shown (R41, R136). -/
theorem wireWord_wireBits (f : Frame) : wireWord (wireBits f) = f := by
  apply BitVec.eq_of_getLsbD_eq
  intro i hi
  simp only [wireWord, wireBits, List.range, List.range.loop, List.map_cons, List.map_nil, List.foldl_cons,
    List.foldl_nil]
  interval_cases i <;> simp

/-- While no level changes on the lines the observer reads, it sees nothing (R136). -/
theorem observe_quiet {a b : State} (hc : b.csn = a.csn) (hk : b.sck = a.sck) (hl : b.len = a.len) :
    observe a b = b := by
  have h : b.dac.see a b = b.dac := by
    cases h1 : a.csn <;> cases h2 : a.sck <;> cases h3 : a.len <;> simp [Dac.see, hc, hk, hl, h1, h2, h3]
  simp [observe, h]

/-- While `bus_oe = 0` the observer sees nothing (R136). -/
theorem observe_disabled {a b : State} (h : a.en = false) : observe a b = b := by simp [observe, h]

section ObserveFields
variable (a b : State)
@[simp] theorem observe_en : (observe a b).en = b.en := by simp only [observe]
@[simp] theorem observe_sck : (observe a b).sck = b.sck := by simp only [observe]
@[simp] theorem observe_mosi : (observe a b).mosi = b.mosi := by simp only [observe]
@[simp] theorem observe_csn : (observe a b).csn = b.csn := by simp only [observe]
@[simp] theorem observe_len : (observe a b).len = b.len := by simp only [observe]
@[simp] theorem observe_sr : (observe a b).sr = b.sr := by simp only [observe]
@[simp] theorem observe_fr : (observe a b).fr = b.fr := by simp only [observe]
@[simp] theorem observe_bitcnt : (observe a b).bitcnt = b.bitcnt := by simp only [observe]
@[simp] theorem observe_byteidx : (observe a b).byteidx = b.byteidx := by simp only [observe]
@[simp] theorem observe_ph : (observe a b).ph = b.ph := by simp only [observe]
@[simp] theorem observe_dly : (observe a b).dly = b.dly := rfl
@[simp] theorem observe_tc : (observe a b).tc = b.tc := by simp only [observe]
@[simp] theorem observe_cfg : (observe a b).cfg = b.cfg := rfl
@[simp] theorem observe_host : (observe a b).host = b.host := by simp only [observe]
@[simp] theorem observe_draw : (observe a b).draw = b.draw := by simp only [observe]
end ObserveFields

end Sys2Proof.Machine
end

