-- ==== Sys2Proof/Laws/PerInstr.lean ====
section
/-! SUPPORT. Facts of every instruction as syntax, one lemma per constructor: its canonical word matches the row of spec/opcode_table.json it belongs to, and no other row of that format (R70, R67). -/

namespace Sys2Proof.Laws.OwnRow

/-- The canonical word of an instruction matches exactly one row of its format's table, the instruction's own; a frame's
word is the frame's two fields, and it matches its row when the frame is well formed. -/
def Statement (i : Instr) : Prop :=
  match encode i with
  | .host w => matchingRows hostRows w = [i.mnemonic]
  | .top w => matchingRows topRows w = [i.mnemonic]
  | .wire w => i = .frame (w.extractLsb' 12 4) (w.extractLsb' 0 12) ∧
    (i.wf = true → matchingRows wireRows w = [i.mnemonic])

theorem nop : Statement .nop := by
  show matchingRows hostRows _ = _
  decide
theorem init : Statement .init := by
  show matchingRows hostRows _ = _
  decide
theorem writev (code : Code12) : Statement (.writev code) := by
  have h : hostWord 0x2#4 (0#4 ++ code) = (0x20#8 : BitVec 8) ++ code := by
    apply BitVec.eq_of_toNat_eq
    have h1 := BitVec.toNat_append (x := (0#4 : BitVec 4)) (y := code)
    have h2 := BitVec.toNat_append (x := (0x2#4 : BitVec 4)) (y := (0#4 ++ code : BitVec 16))
    have h3 := BitVec.toNat_append (x := (0x20#8 : BitVec 8)) (y := code)
    refine h2.trans (Eq.trans ?_ h3.symm)
    rw [h1]
    simp
  have hm : ∀ m : BitVec 8, ((0x20#8 : BitVec 8) ++ code) &&& (m ++ 0#12) = (0x20#8 &&& m) ++ 0#12 := by
    intro m; rw [BitVec.and_append]; simp
  unfold Statement
  simp only [encode, h]
  have e1 := hm 0xF0#8
  have e2 := hm 0xC0#8
  have e3 := hm 0x80#8
  rw [show (0xF0#8 ++ 0#12 : BitVec 20) = 0xF0000#20 from rfl] at e1
  rw [show (0xC0#8 ++ 0#12 : BitVec 20) = 0xC0000#20 from rfl] at e2
  rw [show (0x80#8 ++ 0#12 : BitVec 20) = 0x80000#20 from rfl] at e3
  simp only [matchingRows, hostRows, List.filter, e1, e2, e3]
  rfl
theorem reserved3 : Statement .reserved3 := by
  show matchingRows hostRows _ = _
  decide
theorem reserved47 (low : BitVec 2) : Statement (.reserved47 low) := by
  show matchingRows hostRows (hostWord _ _) = _
  revert low
  decide
theorem reserved8F (low : BitVec 3) : Statement (.reserved8F low) := by
  show matchingRows hostRows (hostWord _ _) = _
  revert low
  decide
theorem tInit : Statement .tInit := by
  show matchingRows topRows _ = _
  decide
theorem tSel : Statement .tSel := by
  show matchingRows topRows _ = _
  decide
theorem tDesel : Statement .tDesel := by
  show matchingRows topRows _ = _
  decide
theorem tXchg (byte : Byte) : Statement (.tXchg byte) := by
  show matchingRows topRows (topWord _ _) = _
  revert byte
  decide
theorem frame (ctrl : Nibble) (code : Code12) : Statement (.frame ctrl code) := by
  refine ⟨?_, fun h => ?_⟩
  · congr 1
    · apply BitVec.eq_of_getLsbD_eq
      intro j hj
      have h : ¬ 12 + j < 12 := by omega
      rw [BitVec.getLsbD_extractLsb', BitVec.getLsbD_append]
      simp [hj, h]
    · apply BitVec.eq_of_getLsbD_eq
      intro j hj
      rw [BitVec.getLsbD_extractLsb', BitVec.getLsbD_append]
      simp [hj]
  · have hm : ((ctrl ++ code : BitVec 16) &&& (0x8#4 ++ 0#12)) = (ctrl &&& 0x8#4) ++ 0#12 := by
      rw [BitVec.and_append]
      simp
    have hc : ∀ c : Nibble, c.msb = false → c &&& 0x8#4 = 0#4 := by decide
    rw [hc ctrl (by simpa [Instr.wf] using h)] at hm
    show ((wireRows.filter fun row => (ctrl ++ code : BitVec 16) &&& row.2.1 == row.2.2).map Prod.fst) = _
    rw [show (0x8#4 ++ 0#12 : BitVec 16) = 0x8000#16 from rfl] at hm
    simp only [wireRows, List.filter, hm]
    rfl

end Sys2Proof.Laws.OwnRow
end

