-- ==== Sys2Proof/Laws/Step.lean ====
section
/-! SUPPORT. What one step can do, said once: the edges of the phase graph (R138), each with its condition and its effect, and that a tick takes exactly one of them. -/

namespace Sys2Proof.Machine

/-- The edges of R138 with the register writes of R121 to R131. -/
inductive Edge (inp : Inputs) (s : State) : State → Prop where
  /-- Any phase, `rst = 1` (R170). -/
  | reset (hr : inp.rst = true) : Edge inp s s.resetRegs
  /-- A timed phase whose dwell is not over (R132). -/
  | stay (hr : inp.rst = false) (ht : s.ph.timed = true) (hd : s.dly ≠ 0#_) : Edge inp s s.countDown
  /-- `IDLE`: no command, `NOP` or a reserved opcode (R121). -/
  | quiet (hr : inp.rst = false) (hp : s.ph = .idle)
      (hn : inp.cmdValid = true → decodeHost inp.cmd ≠ .init ∧ ∀ c, decodeHost inp.cmd ≠ .writev c) : Edge inp s s
  /-- `IDLE`: `INIT` (R110, R121). -/
  | init (hr : inp.rst = false) (hp : s.ph = .idle) (hv : inp.cmdValid = true) (hi : decodeHost inp.cmd = .init) :
      Edge inp s s.initBus
  /-- `IDLE`: `WRITEV` with Latch-Enable deasserted (R121). -/
  | write (hr : inp.rst = false) (hp : s.ph = .idle) (hv : inp.cmdValid = true) (code : Code12)
      (hi : decodeHost inp.cmd = .writev code) (hl : s.len = true) :
      Edge inp s (((s.loadFrame (composeFrame s.cfg.ctrl code)).assertSelect).enter .csSetup s.cfg.tCss)
  /-- `IDLE`: `WRITEV` with Latch-Enable found asserted (R104, R121). -/
  | writeNorm (hr : inp.rst = false) (hp : s.ph = .idle) (hv : inp.cmdValid = true) (code : Code12)
      (hi : decodeHost inp.cmd = .writev code) (hl : s.len = false) :
      Edge inp s (((s.loadFrame (composeFrame s.cfg.ctrl code)).deassertLatch).enter .leNorm s.cfg.tLeh)
  /-- `LE_NORM` exit (R122). -/
  | normDone (hr : inp.rst = false) (hp : s.ph = .leNorm) (hd : s.dly = 0#_) :
      Edge inp s (s.assertSelect.enter .csSetup s.cfg.tCss)
  /-- `CS_SETUP` exit with the Transport enabled (R123, R124). -/
  | startHigh (hr : inp.rst = false) (hp : s.ph = .csSetup) (hd : s.dly = 0#_) (he : s.en = true) :
      Edge inp s (((s.loadByte (highByte s.fr)).clearTc.setByteIdx false).enter .shLow s.cfg.tHalf)
  /-- `CS_SETUP` exit with the Transport disabled (R83, R124). -/
  | hangHigh (hr : inp.rst = false) (hp : s.ph = .csSetup) (hd : s.dly = 0#_) (he : s.en = false) : Edge inp s s.hang
  /-- `SH_LOW` exit, the rising edge (R125). -/
  | rise (hr : inp.rst = false) (hp : s.ph = .shLow) (hd : s.dly = 0#_) :
      Edge inp s ((s.riseClock inp.miso).enter .shHigh s.cfg.tHalf)
  /-- `SH_HIGH` exit, a falling edge but the eighth (R126). -/
  | fall (hr : inp.rst = false) (hp : s.ph = .shHigh) (hd : s.dly = 0#_) (hb : s.bitcnt ≠ 1#4) :
      Edge inp s (s.fallClock.driveNextBit.enter .shLow s.cfg.tHalf)
  /-- `SH_HIGH` exit, the eighth falling edge (R126). -/
  | lastFall (hr : inp.rst = false) (hp : s.ph = .shHigh) (hd : s.dly = 0#_) (hb : s.bitcnt = 1#4) :
      Edge inp s (s.fallClock.setTc.goto .xdone)
  /-- `XDONE` after the high byte with the Transport enabled (R127). -/
  | startLow (hr : inp.rst = false) (hp : s.ph = .xdone) (hb : s.byteidx = false) (he : s.en = true) :
      Edge inp s (((s.loadByte (lowByte s.fr)).clearTc.setByteIdx true).enter .shLow s.cfg.tHalf)
  /-- `XDONE` after the high byte with the Transport disabled (R83, R127). -/
  | hangLow (hr : inp.rst = false) (hp : s.ph = .xdone) (hb : s.byteidx = false) (he : s.en = false) :
      Edge inp s s.hang
  /-- `XDONE` after the low byte (R127). -/
  | hold (hr : inp.rst = false) (hp : s.ph = .xdone) (hb : s.byteidx = true) : Edge inp s (s.enter .csHold s.cfg.tCsh)
  /-- `CS_HOLD` exit (R128). -/
  | deselect (hr : inp.rst = false) (hp : s.ph = .csHold) (hd : s.dly = 0#_) :
      Edge inp s (s.deassertSelect.enter .csLeGap s.cfg.tCsle)
  /-- `CS_LE_GAP` exit (R129). -/
  | latchDown (hr : inp.rst = false) (hp : s.ph = .csLeGap) (hd : s.dly = 0#_) :
      Edge inp s (s.assertLatch.enter .lePulse s.cfg.tLew)
  /-- `LE_PULSE` exit, the return (R130). -/
  | latchUp (hr : inp.rst = false) (hp : s.ph = .lePulse) (hd : s.dly = 0#_) : Edge inp s (s.deassertLatch.goto .idle)
  /-- `HUNG` (R131). -/
  | hungStay (hr : inp.rst = false) (hp : s.ph = .hung) : Edge inp s s

/-- A decoded host word executed in `IDLE` is one of four edges (R121). -/
theorem exec_host_edge {inp : Inputs} {s t : State} (hr : inp.rst = false) (hp : s.ph = .idle)
    (hv : inp.cmdValid = true) (h : exec (decodeHost inp.cmd) s = .next t) : Edge inp s t := by
  have host : ∀ i, decodeHost inp.cmd = i → i = .init ∨ (∃ c, i = .writev c) ∨ exec i s = .next s := by
    intro i hi
    rw [← hi]
    unfold decodeHost
    repeat' split
    all_goals first
      | exact .inl rfl
      | exact .inr (.inl ⟨_, rfl⟩)
      | exact .inr (.inr rfl)
  rcases host _ rfl with hi | ⟨c, hi⟩ | hi
  · rw [hi] at h
    cases h
    exact .init hr hp hv hi
  · rw [hi] at h
    cases hl : s.len with
    | true =>
      simp only [exec, execWritev, hl] at h
      cases h
      exact .write hr hp hv c hi hl
    | false =>
      simp only [exec, execWritev, hl] at h
      cases h
      exact .writeNorm hr hp hv c hi hl
  · by_cases hn : decodeHost inp.cmd ≠ .init ∧ ∀ c, decodeHost inp.cmd ≠ .writev c
    · rw [hi] at h
      cases h
      exact .quiet hr hp fun _ => hn
    · rcases Classical.not_and_iff_not_or_not.mp hn with h1 | h1
      · have h1 := Classical.not_not.mp h1
        rw [h1] at h
        cases h
        exact .init hr hp hv h1
      · obtain ⟨c, hc⟩ := Classical.not_forall.mp h1
        have hc := Classical.not_not.mp hc
        rw [hc] at h
        cases hl : s.len with
        | true =>
          simp only [exec, execWritev, hl] at h
          cases h
          exact .write hr hp hv c hc hl
        | false =>
          simp only [exec, execWritev, hl] at h
          cases h
          exact .writeNorm hr hp hv c hc hl

/-- In a timed phase whose dwell is not over, a tick without reset only counts down (R132). -/
theorem blockTick_stay {inp : Inputs} {s : State} (hr : inp.rst = false) (ht : s.ph.timed = true) (hd : s.dly ≠ 0#_) :
    blockTick inp s = .next s.countDown := by
  have stay := fun exit => dwell_stay hd exit
  cases hp : s.ph <;> simp only [hp, Phase.timed, Bool.false_eq_true] at ht <;>
    simp only [blockTick, hr, hp, Bool.false_eq_true, if_false] <;> exact stay _

/-- A tick of the block takes an edge of the phase graph (R138). -/
theorem blockTick_edge {inp : Inputs} {s t : State} (h : blockTick inp s = .next t) : Edge inp s t := by
  cases hr : inp.rst with
  | true =>
    simp only [blockTick, hr, if_true] at h
    cases h
    exact .reset hr
  | false =>
    by_cases hs : s.ph.timed = true ∧ s.dly ≠ 0#_
    · rw [blockTick_stay hr hs.1 hs.2] at h
      cases h
      exact .stay hr hs.1 hs.2
    have hd (ht : s.ph.timed = true) : s.dly = 0#_ := Classical.not_not.mp fun hd => hs ⟨ht, hd⟩
    simp only [blockTick, hr, Bool.false_eq_true, if_false] at h
    cases hp : s.ph <;> simp only [hp, Phase.timed, forall_const] at h hd
    case idle =>
      cases hv : inp.cmdValid with
      | false =>
        simp only [idleTick, hv, Bool.false_eq_true, if_false] at h
        cases h
        exact .quiet hr hp fun h => by simp [hv] at h
      | true =>
        simp only [idleTick, hv, if_true] at h
        exact exec_host_edge hr hp hv h
    case xdone =>
      cases hb : s.byteidx with
      | true =>
        simp only [xdoneTick, hb, if_true] at h
        cases h
        exact .hold hr hp hb
      | false =>
        simp only [xdoneTick, hb, Bool.false_eq_true, if_false, exec, execTXchg, exchangeIndex, hp] at h
        cases h
        cases he : s.en with
        | true => rw [State.startXchg_enabled he]; exact .startLow hr hp hb he
        | false => rw [State.startXchg_disabled he]; exact .hangLow hr hp hb he
    case hung =>
      cases h
      exact .hungStay hr hp
    case leNorm => rw [leNormTick, dwell_exit hd] at h; cases h; exact .normDone hr hp hd
    case csSetup =>
      rw [csSetupTick, dwell_exit hd] at h
      simp only [exec, execTXchg, exchangeIndex, hp] at h
      cases h
      cases he : s.en with
      | true => rw [State.startXchg_enabled he]; exact .startHigh hr hp hd he
      | false => rw [State.startXchg_disabled he]; exact .hangHigh hr hp hd he
    case shLow => rw [shLowTick, dwell_exit hd] at h; cases h; exact .rise hr hp hd
    case shHigh =>
      rw [shHighTick, dwell_exit hd] at h
      by_cases hb : s.bitcnt = 1#4
      · simp only [State.lastPulse, hb, beq_self_eq_true, if_true] at h
        cases h
        exact .lastFall hr hp hd hb
      · simp only [State.lastPulse, beq_eq_false_iff_ne.mpr hb, Bool.false_eq_true, if_false] at h
        cases h
        exact .fall hr hp hd hb
    case csHold => rw [csHoldTick, dwell_exit hd] at h; cases h; exact .deselect hr hp hd
    case csLeGap => rw [csLeGapTick, dwell_exit hd] at h; cases h; exact .latchDown hr hp hd
    case lePulse => rw [lePulseTick, dwell_exit hd] at h; cases h; exact .latchUp hr hp hd

/-- Every edge is what the tick does: the phase graph is deterministic (R120, R138). -/
theorem edge_blockTick {inp : Inputs} {s t : State} (h : Edge inp s t) : blockTick inp s = .next t := by
  cases h with
  | reset hr => simp [blockTick, hr]
  | stay hr ht hd => exact blockTick_stay hr ht hd
  | quiet hr hp hn =>
    cases hv : inp.cmdValid with
    | false => simp [blockTick, idleTick, hr, hp, hv]
    | true =>
      have hn := hn hv
      have : exec (decodeHost inp.cmd) s = .next s := by
        revert hn
        unfold decodeHost
        repeat' split
        all_goals first
          | exact fun _ => rfl
          | exact fun h => absurd rfl h.1
          | exact fun h => absurd rfl (h.2 _)
      simp [blockTick, idleTick, hr, hp, hv, this]
  | init hr hp hv hi => simp only [blockTick, idleTick, hr, hp, hv, hi]; rfl
  | write hr hp hv code hi hl => simp [blockTick, idleTick, hr, hp, hv, hi, exec, execWritev, hl]
  | writeNorm hr hp hv code hi hl => simp [blockTick, idleTick, hr, hp, hv, hi, exec, execWritev, hl]
  | normDone hr hp hd => simp [blockTick, leNormTick, dwell, exec, execTSel, hr, hp, hd]
  | startHigh hr hp hd he =>
    simp only [blockTick, csSetupTick, dwell, exec, execTXchg, State.startXchg, hr, hp, hd, he, if_true]
    rfl
  | hangHigh hr hp hd he =>
    simp [blockTick, csSetupTick, dwell, exec, execTXchg, State.startXchg, hr, hp, hd, he]
  | rise hr hp hd => simp [blockTick, shLowTick, dwell, hr, hp, hd]
  | fall hr hp hd hb => simp [blockTick, shHighTick, dwell, State.lastPulse, hr, hp, hd, hb]
  | lastFall hr hp hd hb => simp [blockTick, shHighTick, dwell, State.lastPulse, hr, hp, hd, hb]
  | startLow hr hp hb he =>
    simp [blockTick, xdoneTick, exec, execTXchg, exchangeIndex, State.startXchg, hr, hp, hb, he]
  | hangLow hr hp hb he => simp [blockTick, xdoneTick, exec, execTXchg, State.startXchg, hr, hp, hb, he]
  | hold hr hp hb => simp [blockTick, xdoneTick, hr, hp, hb]
  | deselect hr hp hd => simp [blockTick, csHoldTick, dwell, exec, execTDesel, hr, hp, hd]
  | latchDown hr hp hd => simp [blockTick, csLeGapTick, dwell, hr, hp, hd]
  | latchUp hr hp hd => simp [blockTick, lePulseTick, dwell, hr, hp, hd]
  | hungStay hr hp => simp [blockTick, hungTick, hr, hp]

/-- What a tick of the whole machine can do: a well-formed configuration takes an edge, watched by the observer. -/
theorem tick_edge {inp : Inputs} {s s' : State} (h : tick inp s = .next s') :
    s.cfg.wf = true ∧ ∃ t, Edge inp s t ∧ s' = observe s t := by
  cases hw : s.cfg.wf with
  | false => simp [tick, hw] at h
  | true =>
    simp only [tick, hw, if_true] at h
    obtain ⟨t, ht, rfl⟩ := onNext_eq_next.mp h
    exact ⟨rfl, t, blockTick_edge ht, rfl⟩

/-- What a step can do: a tick of the inputs the host agent gives, the host agent having moved on. -/
theorem step_edge {s s' : State} (h : step s = .next s') :
    s.cfg.wf = true ∧ ∃ t, Edge s.inputs s.advanceHost t ∧ s' = observe s.advanceHost t :=
  tick_edge (s := s.advanceHost) h

end Sys2Proof.Machine
end

