-- ==== Sys2Proof/Laws/Runs.lean ====
section
/-! SUPPORT. Runs of several ticks, once: a run tick by tick, one whole dwell, and the two dwells of one clock pulse. -/

namespace Sys2Proof.Machine

/-- A well-formed configuration takes each edge, watched by the observer. -/
theorem tick_of_edge {inp : Inputs} {s t : State} (hw : s.cfg.wf = true) (h : Edge inp s t) :
    tick inp s = .next (observe s t) := by
  simp [tick, hw, edge_blockTick h]

/-- A run after its first tick. -/
theorem ticks_cons {inp : Inputs} {rest : List Inputs} {s t : State} (h : tick inp s = .next t) :
    ticks (inp :: rest) s = ticks rest t := by
  simp [ticks, h]

/-- The states of a run after its first tick. -/
theorem trace_cons {inp : Inputs} {rest : List Inputs} {s t : State} (h : tick inp s = .next t) :
    trace (inp :: rest) s = s :: trace rest t := by
  simp [trace, h]

/-- What is left of a run without reset has none. -/
theorem NoReset.drop {ins : List Inputs} (h : NoReset ins) (n : Nat) : NoReset (ins.drop n) :=
  fun inp hi => h inp (List.mem_of_mem_drop hi)

/-- Every dwell of a well-formed configuration is at least one tick (R5). -/
theorem Config.wf_pos {c : Config} (h : c.wf = true) :
    1 ≤ c.tHalf ∧ 1 ≤ c.tCss ∧ 1 ≤ c.tCsh ∧ 1 ≤ c.tCsle ∧ 1 ≤ c.tLew ∧ 1 ≤ c.tLeh := by
  simp only [Config.wf, Config.dwellOk, Bool.and_eq_true, decide_eq_true_eq] at h
  omega

/-- Every dwell of a well-formed configuration is allowed by R5. -/
theorem Config.wf_dwellOk {c : Config} (h : c.wf = true) :
    c.dwellOk c.tHalf = true ∧ c.dwellOk c.tCss = true ∧ c.dwellOk c.tCsh = true ∧ c.dwellOk c.tCsle = true ∧
    c.dwellOk c.tLew = true ∧ c.dwellOk c.tLeh = true := by
  simp only [Config.wf, Bool.and_eq_true] at h
  simp only [h, and_self]

/-- A whole dwell (R132): a timed phase with counter `n` is seen for `n + 1` cycles, and the tick that ends the last
one takes the phase's exit edge, from the same state with counter 0. `view` is anything that does not read `DLY`. -/
theorem dwell_run {α : Type} (view : State → α) (hview : ∀ s d, view { s with dly := d } = view s)
    (exit : State → Inputs → State) :
    ∀ (n : Nat) (s : State) (ins : List Inputs), s.dly.toNat = n → s.cfg.wf = true → s.ph.timed = true → NoReset ins →
      n + 1 ≤ ins.length →
      (∀ inp, inp.rst = false → Edge inp { s with dly := 0#_ } (exit { s with dly := 0#_ } inp)) →
      ∃ inp, ins[n]? = some inp ∧ inp.rst = false ∧
        (trace ins s).map view = List.replicate (n + 1) (view s) ++
          (trace (ins.drop (n + 1)) (observe { s with dly := 0#_ } (exit { s with dly := 0#_ } inp))).map view ∧
        ticks ins s = ticks (ins.drop (n + 1)) (observe { s with dly := 0#_ } (exit { s with dly := 0#_ } inp)) := by
  intro n
  induction n with
  | zero =>
    intro s ins hd hw _ hn hl he
    cases ins with
    | nil => simp at hl
    | cons inp rest =>
      have hr : inp.rst = false := hn inp (by simp)
      have hs : { s with dly := 0#_ } = s := by rw [← show s.dly = 0#_ from BitVec.eq_of_toNat_eq (by simpa using hd)]
      have ht := tick_of_edge (s := { s with dly := 0#_ }) hw (he inp hr)
      rw [hs] at ht ⊢
      exact ⟨inp, rfl, hr, by rw [trace_cons ht]; simp, by rw [ticks_cons ht]; simp⟩
  | succ n ih =>
    intro s ins hd hw ht hn hl he
    cases ins with
    | nil => simp at hl
    | cons inp rest =>
      have h0 : s.dly ≠ 0#_ := fun h => by rw [h] at hd; simp at hd
      have hk : tick inp s = .next s.countDown := by
        have := tick_of_edge (s := s) hw (.stay (hn inp (by simp)) ht h0)
        rwa [observe_quiet (a := s) (b := s.countDown) rfl rfl rfl] at this
      have hs : { s.countDown with dly := 0#_ } = { s with dly := 0#_ } := rfl
      obtain ⟨j, e1, e2, e3, e4⟩ := ih s.countDown rest (by have := State.countDown_dly_toNat h0; omega) hw ht
        (fun x hx => hn x (by simp [hx])) (by simpa using hl) (by rw [hs]; exact he)
      refine ⟨j, by simpa using e1, e2, ?_, ?_⟩
      · rw [trace_cons hk, List.map_cons, e3, hs, List.replicate_succ (n := n + 1), List.drop_succ_cons]
        have : view s.countDown = view s := hview s _
        rw [this]; rfl
      · rw [ticks_cons hk, e4, hs, List.drop_succ_cons]

/-- The unsent `n` bits of byte `cur` stand in the top of the shift register (R82). -/
def Unsent (n : Nat) (sr cur : Byte) : Prop := sr.toNat / 2 ^ (8 - n) = cur.toNat % 2 ^ n

/-- The next bit to send is the shift register's top bit (R82). -/
theorem Unsent.next_bit {n : Nat} {sr cur : Byte} (h1 : 1 ≤ n) (h8 : n ≤ 8) (h : Unsent n sr cur) :
    sr.msb = cur.getLsbD (n - 1) := by
  unfold Unsent at h
  rw [BitVec.msb_eq_decide, BitVec.getLsbD_eq_getElem (by omega), BitVec.getElem_eq_testBit_toNat,
    Nat.testBit_eq_decide_div_mod_eq]
  have := sr.isLt
  have := cur.isLt
  interval_cases n <;> simp at h ⊢ <;> omega

/-- A shift leaves the other unsent bits in the top, whatever level is sampled (R82, R50). -/
theorem Unsent.shift {n : Nat} {sr cur : Byte} (h1 : 1 ≤ n) (h8 : n ≤ 8) (h : Unsent n sr cur) (m : Level) :
    Unsent (n - 1) (shiftIn sr m) cur := by
  unfold Unsent at *
  rw [shiftIn_toNat]
  have := sr.isLt
  have := cur.isLt
  have : m.toNat < 2 := by cases m <;> decide
  interval_cases n <;> simp at h ⊢ <;> omega

/-- Right after the load every bit is unsent (R124). -/
theorem Unsent.load (b : Byte) : Unsent 8 b b := by
  unfold Unsent
  have := b.isLt
  simp; omega

theorem highByte_getLsbD (f : Frame) (j : Nat) (h : j < 8) : (highByte f).getLsbD j = f.getLsbD (8 + j) := by
  simp [highByte, h]

theorem lowByte_getLsbD (f : Frame) (j : Nat) (h : j < 8) : (lowByte f).getLsbD j = f.getLsbD j := by
  simp [lowByte, h]

/-- The exit of `SH_HIGH`, both cases (R126). -/
def State.fallExit (s : State) : State :=
  if s.bitcnt = 1#4 then s.fallClock.setTc.goto .xdone else s.fallClock.driveNextBit.enter .shLow s.cfg.tHalf

/-- What the exit of `SH_HIGH` writes, and what it leaves (R126). -/
theorem State.fallExit_fields (s : State) :
    s.fallExit.cfg = s.cfg ∧ s.fallExit.fr = s.fr ∧ s.fallExit.byteidx = s.byteidx ∧
    s.fallExit.bitcnt = s.bitcnt - 1#4 ∧ s.fallExit.sr = s.sr ∧ s.fallExit.csn = s.csn ∧ s.fallExit.len = s.len ∧
    s.fallExit.en = s.en ∧ s.fallExit.sck = false ∧ s.fallExit.dac = s.dac ∧
    (s.bitcnt = 1#4 → s.fallExit.ph = .xdone ∧ s.fallExit.tc = true ∧ s.fallExit.mosi = s.mosi ∧
      s.fallExit.dly.toNat = s.dly.toNat) ∧
    (s.bitcnt ≠ 1#4 → s.fallExit.ph = .shLow ∧
      s.fallExit.dly.toNat = (BitVec.ofNat s.cfg.dlyW (s.cfg.tHalf - 1)).toNat ∧ s.fallExit.mosi = s.sr.msb) := by
  by_cases h : s.bitcnt = 1#4
  · rw [show s.fallExit = s.fallClock.setTc.goto .xdone from if_pos h]
    simp [h]
  · rw [show s.fallExit = s.fallClock.driveNextBit.enter .shLow s.cfg.tHalf from if_neg h]
    simp [h]

/-- The two dwells of one clock pulse (R81, R82, R125, R126): with `n` bits of byte `cur` still to be clocked, `2·T_HALF`
ticks show the clock low and then high over the same data bit, sample one level, and leave `n - 1` bits to be clocked. -/
theorem bit_run (s : State) (cur : Byte) (n : Nat) (ins : List Inputs) (hw : s.cfg.wf = true) (he : s.en = true)
    (hk : s.sck = false) (hb : s.bitcnt.toNat = n) (h1 : 1 ≤ n) (h8 : n ≤ 8) (hu : Unsent n s.sr cur)
    (hp : s.ph = .shLow) (hd : s.dly.toNat = s.cfg.tHalf - 1) (hn : NoReset ins) (hl : 2 * s.cfg.tHalf ≤ ins.length) :
    ∃ u i,
      (trace ins s).map State.waveRow =
        List.replicate s.cfg.tHalf { ph := .shLow, csN := s.csn, sck := false, mosi := s.mosi, leN := s.len } ++
        List.replicate s.cfg.tHalf { ph := .shHigh, csN := s.csn, sck := true, mosi := s.mosi, leN := s.len } ++
        (trace (ins.drop (2 * s.cfg.tHalf)) u).map State.waveRow ∧
      ticks ins s = ticks (ins.drop (2 * s.cfg.tHalf)) u ∧ u.cfg = s.cfg ∧ u.fr = s.fr ∧ u.byteidx = s.byteidx ∧
      u.bitcnt.toNat = n - 1 ∧
      (n = 1 → u.ph = .xdone ∧ u.tc = true ∧ u.mosi = s.mosi ∧ u.dly.toNat = 0) ∧
      (n ≠ 1 → u.ph = .shLow ∧ u.dly.toNat = s.cfg.tHalf - 1 ∧ u.mosi = cur.getLsbD (n - 1 - 1) ∧
        Unsent (n - 1) u.sr cur) ∧
      ins[s.cfg.tHalf - 1]? = some i ∧ u.sr = shiftIn s.sr i.miso ∧ u.csn = s.csn ∧ u.len = s.len ∧ u.en = s.en ∧
      u.sck = false ∧ u.dac = { s.dac with bits := s.dac.bits ++ if s.csn then [] else [s.mosi] } := by
  have hH := (Config.wf_pos hw).1
  have hbv : s.bitcnt = 1#4 ↔ n = 1 := by
    constructor
    · intro h; rw [h] at hb; simpa using hb.symm
    · intro h; apply BitVec.eq_of_toNat_eq; simpa [h] using hb
  obtain ⟨i, e1, -, e3, e4⟩ := dwell_run State.waveRow (fun _ _ => rfl)
    (fun s i => (s.riseClock i.miso).enter .shHigh s.cfg.tHalf)
    (s.cfg.tHalf - 1) s ins hd hw (by rw [hp]; rfl) hn (by omega) (fun _ hr => .rise hr hp rfl)
  set v := observe { s with dly := 0#_ } (({ s with dly := 0#_ } : State).riseClock i.miso |>.enter .shHigh s.cfg.tHalf)
    with hv
  have hvp : v.ph = .shHigh := by simp [hv]
  have hvc : v.cfg = s.cfg := by simp [hv]
  have hload := Config.dwellOk_load (Config.wf_dwellOk hw).1
  have hvd : v.dly.toNat = s.cfg.tHalf - 1 := hload
  have hvm : v.mosi = s.mosi := by simp [hv]
  have hvb : v.bitcnt = s.bitcnt := by simp [hv]
  have hvs : v.sr = shiftIn s.sr i.miso := by simp [hv]
  have hvk : v.sck = true := by simp [hv]
  have hvcs : v.csn = s.csn := by simp [hv]
  have hvl : v.len = s.len := by simp [hv]
  have hve : v.en = true := by simp [hv, he]
  have hvdac : v.dac = { s.dac with bits := s.dac.bits ++ if s.csn then [] else [s.mosi] } := by
    cases hc : s.csn <;> cases hl : s.len <;> simp [hv, observe, he, Dac.see, Dac.sample, hk, hc, hl]
  have hrs : s.waveRow = { ph := .shLow, csN := s.csn, sck := false, mosi := s.mosi, leN := s.len } := by
    simp [State.waveRow, State.outputs, hp, hk]
  have hrv : v.waveRow = { ph := .shHigh, csN := s.csn, sck := true, mosi := s.mosi, leN := s.len } := by
    simp [State.waveRow, State.outputs, hvp, hvm, hvk, hvcs, hvl]
  rw [Nat.sub_add_cancel hH] at e3 e4
  have hft : ∀ i : Inputs, i.rst = false → Edge i { v with dly := 0#_ } ({ v with dly := 0#_ } : State).fallExit := by
    intro i hr
    unfold State.fallExit
    split
    · rename_i hb; exact .lastFall hr hvp rfl hb
    · rename_i hb; exact .fall hr hvp rfl hb
  obtain ⟨k, -, -, f3, f4⟩ := dwell_run State.waveRow (fun _ _ => rfl) (fun s _ => s.fallExit)
    (s.cfg.tHalf - 1) v (ins.drop s.cfg.tHalf) hvd (by rw [hvc]; exact hw) (by rw [hvp]; rfl) (hn.drop _)
    (by simp; omega) hft
  rw [Nat.sub_add_cancel hH, List.drop_drop, show s.cfg.tHalf + s.cfg.tHalf = 2 * s.cfg.tHalf by omega] at f3 f4
  obtain ⟨g1, g2, g3, g4, g5, g6, g7, g8, g9, g10, g11, g12⟩ := State.fallExit_fields { v with dly := 0#_ }
  have hbt : (s.bitcnt - 1#4).toNat = n - 1 := by
    have : ∀ b : BitVec 4, b.toNat ≠ 0 → (b - 1#4).toNat = b.toNat - 1 := by decide
    rw [this _ (by omega), hb]
  refine ⟨_, i, ?_, by rw [e4, f4], ?_, ?_, ?_, ?_, ?_, ?_, e1, ?_, ?_, ?_, ?_, ?_, ?_⟩
  · rw [e3, f3, hrs, hrv, List.append_assoc]
  · rw [observe_cfg, g1, hvc]
  · rw [observe_fr, g2]; simp [hv]
  · rw [observe_byteidx, g3]; simp [hv]
  · rw [observe_bitcnt, g4, ← hbt]; simp [hv]
  · intro hb
    obtain ⟨p1, p2, p3, p4⟩ := g11 (by simp [hv, hbv.mpr hb])
    simp only [observe_ph, observe_tc, observe_mosi, observe_dly]
    exact ⟨p1, p2, p3.trans hvm, p4.trans (by simp)⟩
  · intro hb
    obtain ⟨p1, p2, p3⟩ := g12 (by rw [hvb, Ne, hbv]; exact hb)
    have hs := hu.shift h1 h8 i.miso
    simp only [observe_ph, observe_dly, observe_mosi, observe_sr]
    refine ⟨p1, p2.trans (by rw [hvc]; exact hload), ?_, ?_⟩
    · rw [p3, hvs]
      exact hs.next_bit (by omega) (by omega)
    · rw [g5, hvs]
      exact hs
  · rw [observe_sr, g5, hvs]
  · rw [observe_csn, g6, hvcs]
  · rw [observe_len, g7, hvl]
  · rw [observe_en, g8, hve, he]
  · rw [observe_sck, g9]
  · have : (observe { v with dly := 0#_ } ({ v with dly := 0#_ } : State).fallExit).dac = v.dac := by
      have h6 := g6.trans hvcs
      have h7 := g7.trans hvl
      revert h6 h7 g9 g10
      generalize ({ v with dly := 0#_ } : State).fallExit = z
      intro h9 h10 h6 h7
      cases hc : s.csn <;> cases hl : s.len <;> simp_all [observe, Dac.see]
    rw [this, hvdac]

end Sys2Proof.Machine
end

