-- ==== Sys2Proof/Tests/Slice0.lean ====
section
/-! SUPPORT. The model's own tests: well-formedness, encodings written out from 30_encoding.md, one-step vectors of 95_test_vectors.md, and a witness for every statement with hypotheses. -/

namespace Sys2Proof.Tests
open Sys2Proof Sys2Proof.Machine

/-! ## Helpers -/

/-- The next state of an outcome, if it is one. -/
def answer (o : Host.Outcome State Fault Refusal) : Option State :=
  match o with
  | .next s => some s
  | .fault _ => none
  | .refused _ => none

/-- The refusal of an outcome, if it is one. -/
def refusal (o : Host.Outcome State Fault Refusal) : Option Refusal :=
  match o with
  | .refused r => some r
  | .next _ => none
  | .fault _ => none

/-- A cycle with no command and no reset. -/
def silent : Inputs := { rst := false, cmdValid := false, cmd := 0#20, miso := false }
/-- A cycle with `rst = 1`. -/
def resetCycle : Inputs := { silent with rst := true }
/-- A cycle in which the host presents `w`. -/
def presents (w : HostWord) : Inputs := { silent with cmdValid := true, cmd := w }

/-- The state "I" of 95_test_vectors.md section 4: after `INIT` from reset. -/
def initialized : State := { State.reset with en := true }

/-- 95_test_vectors.md section 3.7, cycle 10, with the four bits its observer has collected. -/
def midFrame : State :=
  { State.reset with en := true, sck := true, mosi := true, csn := false, sr := 0x80#8, fr := 0x3800#16,
                     bitcnt := 5#4, ph := .shHigh,
                     dac := { Dac.restarted with bits := [false, false, true, true] } }

/-- 95_test_vectors.md section 3.1, cycle 36: `XDONE` after the low byte, with the sixteen bits of 0x3800 seen. -/
def lowByteDone : State :=
  { State.reset with en := true, csn := false, fr := 0x3800#16, byteidx := true, tc := true, ph := .xdone,
                     dac := { Dac.restarted with bits := wireBits 0x3800#16 } }

/-- 95_test_vectors.md section 3.1, cycle 2: `CS_SETUP` of the call with frame 0x3800. -/
def setup : State := { initialized with csn := false, fr := 0x3800#16, ph := .csSetup }

/-- The start state of 95_test_vectors.md section 3.5: Latch-Enable found asserted. -/
def latchLow : State := { initialized with len := false }

/-- The hang of 95_test_vectors.md section 3.4. -/
def hungState : State := { State.reset with csn := false, fr := 0x3123#16, ph := .hung }

/-- A default configuration with another control nibble. -/
def withCtrl (c : Nibble) : Config := { Config.vectorDefaults with ctrl := c }

/-! ## Well-formedness (R5, R60) -/

theorem test_frame_with_c3_is_ill_formed : (Instr.frame 0b1000#4 0#12).wf = false := by decide
theorem test_frame_with_top_nibble_is_well_formed : (Instr.frame 0b0111#4 0xFFF#12).wf = true := by decide
theorem test_defaults_are_well_formed : Config.vectorDefaults.wf = true := by decide
theorem test_ctrl_with_c3_is_ill_formed : (withCtrl 0b1000#4).wf = false := by decide
theorem test_zero_half_period_is_ill_formed : { Config.vectorDefaults with tHalf := 0 }.wf = false := by decide
theorem test_zero_setup_is_ill_formed : { Config.vectorDefaults with tCss := 0 }.wf = false := by decide
theorem test_zero_hold_is_ill_formed : { Config.vectorDefaults with tCsh := 0 }.wf = false := by decide
theorem test_zero_gap_is_ill_formed : { Config.vectorDefaults with tCsle := 0 }.wf = false := by decide
theorem test_zero_latch_pulse_is_ill_formed : { Config.vectorDefaults with tLew := 0 }.wf = false := by decide
theorem test_zero_latch_high_is_ill_formed : { Config.vectorDefaults with tLeh := 0 }.wf = false := by decide
theorem test_dwell_wider_than_its_register_is_ill_formed :
    { Config.vectorDefaults with tLew := 3 }.wf = false := by decide
theorem test_no_dwell_register_is_ill_formed :
    { Config.vectorDefaults with tLew := 1, dlyW := 0 }.wf = false := by decide
/-- R5: a model must refuse an ill-formed configuration, at reset too. -/
theorem test_ill_formed_configuration_is_refused :
    refusal (step { State.reset with cfg := withCtrl 0b1000#4 }) = some .illFormedConfig ∧
    refusal (tick resetCycle { State.reset with cfg := withCtrl 0b1000#4 }) = some .illFormedConfig := by decide

/-! ## Decoding: words written out from the encodings of 30_encoding.md, field by field -/

theorem test_decode_nop : decodeHost 0b0000_0000000000000000#20 = .nop := by decide
theorem test_decode_init : decodeHost 0b0001_0000000000000000#20 = .init := by decide
theorem test_decode_writev : decodeHost 0b0010_0000_1010_1011_1100#20 = .writev 0xABC#12 := by decide
theorem test_decode_writev_ignores_arg_high : decodeHost 0b0010_1111_1000_0000_0000#20 = .writev 0x800#12 := by
  decide
theorem test_decode_reserved3 : decodeHost 0b0011_0000000000000000#20 = .reserved3 := by decide
theorem test_decode_reserved47 : decodeHost 0b0110_0000000000000000#20 = .reserved47 0b10#2 := by decide
theorem test_decode_reserved8F : decodeHost 0b1011_0000000000000000#20 = .reserved8F 0b011#3 := by decide
theorem test_decode_tInit : decodeTop 0b00_00000000#10 = .tInit := by decide
theorem test_decode_tSel : decodeTop 0b01_00000000#10 = .tSel := by decide
theorem test_decode_tDesel : decodeTop 0b10_00000000#10 = .tDesel := by decide
theorem test_decode_tXchg : decodeTop 0b11_00111000#10 = .tXchg 0x38#8 := by decide
/-- S1: C3..C0 = 0011, then D11..D0 = 1000 0000 0000. -/
theorem test_decode_frame : decodeWire 0b0011_1000_0000_0000#16 = .ok (.frame 0b0011#4 0x800#12) := by rfl
theorem test_decode_frame_with_c3_is_rejected : decodeWire 0b1011_1000_0000_0000#16 = .error .writeEnableSet := by rfl

theorem test_encode_host :
    [encode .nop, encode .init, encode (.writev 0xABC#12), encode .reserved3, encode (.reserved47 0b10#2),
      encode (.reserved8F 0b011#3)] =
    [.host 0x00000#20, .host 0x10000#20, .host 0x20ABC#20, .host 0x30000#20, .host 0x60000#20, .host 0xB0000#20] := by
  decide
theorem test_encode_top :
    [encode .tInit, encode .tSel, encode .tDesel, encode (.tXchg 0x38#8)] =
    [.top 0x000#10, .top 0x100#10, .top 0x200#10, .top 0x338#10] := by decide
theorem test_encode_wire : encode (.frame 0b0011#4 0xFFF#12) = .wire 0x3FFF#16 := by decide

/-- S1 and S2 (95_test_vectors.md section 1): the bytes and frames of the source's own scenarios. -/
theorem test_source_scenarios :
    (composeHigh 0b0011#4 0x800#12, composeLow 0x800#12, composeFrame 0b0011#4 0x800#12) =
      (0x38#8, 0x00#8, 0x3800#16) ∧
    (composeHigh 0b0011#4 0xFFF#12, composeLow 0xFFF#12, composeFrame 0b0011#4 0xFFF#12) =
      (0x3F#8, 0xFF#8, 0x3FFF#16) := by decide
/-- Section 2.1, rows with `CTRL` = 0b0110 and 0b0101. -/
theorem test_encoder_rows :
    composeFrame 0b0110#4 (maskCode 0x0800#16) = 0x6800#16 ∧ composeFrame 0b0101#4 (maskCode 0x0A5A#16) = 0x5A5A#16 ∧
    composeFrame 0b0010#4 (maskCode 0x1000#16) = 0x2000#16 := by decide
/-- R69: the pseudo-instruction's limit. -/
theorem test_assembler_limit :
    assemble (.writev12 4095) = some 0x20FFF#20 ∧ assemble (.writev12 4096) = none ∧
    assembleAll [.init, .writev 0x0800#16] = some [0x10000#20, 0x20800#20] := by decide

/-! ## One step each -/

/-- V2 of section 4. -/
theorem test_nop : answer (tick (presents 0x00000#20) State.reset) = some State.reset := by decide
/-- V3 of section 4. -/
theorem test_init : answer (tick (presents 0x10000#20) State.reset) = some initialized := by decide
/-- Section 2.3, second row: `initialize` again touches nothing else. -/
theorem test_init_again :
    answer (exec .init { initialized with mosi := true, sr := 0xA5#8, tc := true }) =
      some { initialized with mosi := true, sr := 0xA5#8, tc := true } := by decide
/-- V7 of section 4. -/
theorem test_writev :
    answer (tick (presents 0x20000#20) initialized) =
      some { initialized with fr := 0x3000#16, csn := false, ph := .csSetup } := by decide
/-- Section 3.5, cycle 0 to cycle 1. -/
theorem test_writev_with_latch_asserted :
    answer (tick (presents 0x20800#20) latchLow) =
      some { initialized with fr := 0x3800#16, ph := .leNorm } := by decide
/-- V5 of section 4. -/
theorem test_reserved3 : answer (tick (presents 0x30000#20) initialized) = some initialized := by decide
/-- R112. -/
theorem test_reserved47 : answer (tick (presents 0x4FFFF#20) initialized) = some initialized := by decide
/-- V6 of section 4. -/
theorem test_reserved8F : answer (tick (presents 0xFFFFF#20) initialized) = some initialized := by decide
/-- Section 2.3, first row. -/
theorem test_tInit : answer (exec .tInit State.reset) = some initialized := by decide
/-- Section 2.3. -/
theorem test_tSel : answer (exec .tSel initialized) = some { initialized with csn := false } := by decide
/-- Section 2.3. -/
theorem test_tDesel :
    answer (exec .tDesel { initialized with csn := false }) = some initialized := by decide
/-- Section 3.1, cycle 2 to cycle 3. -/
theorem test_tXchg :
    answer (tick silent setup) = some { setup with sr := 0x38#8, bitcnt := 8#4, ph := .shLow } := by decide
/-- Section 2.3, last row: nothing but `PH = HUNG`. -/
theorem test_tXchg_disabled :
    answer (exec (.tXchg 0x38#8) { setup with en := false }) = some { setup with en := false, ph := .hung } := by decide
/-- Section 3.1, cycles 37 and 38: Chip-Select rises after the sixteen bits of 0x3800, and the frame is observed. -/
theorem test_frame :
    (answer (tick silent { lowByteDone with ph := .csHold })).map (fun t => (t.csn, t.ph, t.dac.frames, t.dac.pending)) =
      some (true, .csLeGap, [.word 0x3800#16], some (.word 0x3800#16)) := by decide
/-- R136: after a partial frame the answer is undefined. -/
theorem test_frame_after_partial :
    (answer (exec (.frame 0b0011#4 0x800#12)
        { initialized with dac := { Dac.restarted with tainted := true } })).map (fun t => t.dac.frames) =
      some [.undefined] := by decide

/-- Section 2.3, `exchangeByte(0x3A)`: the shift register after the first and the eighth rising edge. -/
theorem test_shift_register : shiftIn 0x3A#8 true = 0x75#8 ∧ shiftIn 0x52#8 true = 0xA5#8 := by decide
/-- Section 3.1, cycle 7 to cycle 8. -/
theorem test_rising_edge :
    (answer (tick silent { midFrame with ph := .shLow, sck := false, sr := 0xE0#8, bitcnt := 6#4 })).map
      (fun t => (t.sck, t.sr, t.bitcnt, t.mosi, t.ph)) = some (true, 0xC0#8, 6#4, true, .shHigh) := by decide
/-- Section 3.1, cycle 6 to cycle 7. -/
theorem test_falling_edge :
    (answer (tick silent { midFrame with mosi := false, sr := 0xE0#8, bitcnt := 7#4 })).map
      (fun t => (t.sck, t.sr, t.bitcnt, t.mosi, t.ph)) = some (false, 0xE0#8, 6#4, true, .shLow) := by decide
/-- Section 3.8: the four-bit wrap of `BITCNT`. -/
theorem test_bit_counter_wraps :
    (answer (tick silent { midFrame with mosi := false, bitcnt := 0#4 })).map
      (fun t => (t.sck, t.bitcnt, t.mosi, t.ph)) = some (false, 15#4, true, .shLow) := by decide
/-- V17 of section 4. -/
theorem test_low_byte_done : answer (tick silent lowByteDone) = some { lowByteDone with ph := .csHold } := by decide
/-- V18 of section 4. -/
theorem test_latch_pulse_ends :
    answer (tick silent { initialized with ph := .lePulse, len := false }) = some initialized := by decide
/-- V19 of section 4. -/
theorem test_latch_pulse_goes_on :
    answer (tick silent { initialized with ph := .lePulse, len := false, dly := 1#_ }) =
      some { initialized with ph := .lePulse, len := false } := by decide
/-- V14 of section 4, with `INIT` presented. -/
theorem test_hung_ignores_init : answer (tick (presents 0x10000#20) hungState) = some hungState := by decide
/-- V16 of section 4: reset wins over a command. -/
theorem test_reset_wins :
    answer (tick { resetCycle with cmdValid := true, cmd := 0x20800#20 } initialized) = some State.reset := by decide
/-- Section 3.7, cycles 10 and 11: reset in the middle of a frame. -/
theorem test_reset_mid_frame :
    (answer (tick resetCycle midFrame)).map (fun t => (t.en, t.csn, t.fr, t.ph, t.dac.frames)) =
      some (false, true, 0x0000#16, .idle, [.undefined]) := by decide
/-- Section 3.6: a command presented while busy is ignored. -/
theorem test_busy_ignores_a_command :
    answer (tick (presents 0x20FFF#20) midFrame) = answer (tick silent midFrame) := by decide
/-- R21, U10: what the block drives on the pads before and after `INIT`. -/
theorem test_pads :
    State.reset.outputs.pad State.reset.outputs.csN = none ∧
    initialized.outputs.pad initialized.outputs.csN = some true := by decide
/-- R89: the signal of an accepted `WRITEV`, and of one that finds Latch-Enable asserted. -/
theorem test_signal :
    transportSignal (presents 0x20800#20) initialized = some .tSel ∧
    transportSignal (presents 0x20800#20) latchLow = none := by decide

/-! ## The host's two questions -/

theorem test_table_word_host : decodeTableWord 20 0x20ABC = some (.writev 0xABC#12) ∧
    decodeTableWord 24 0x10000 = some .init := by decide
theorem test_table_word_top : decodeTableWord 10 0x338 = some (.tXchg 0x38#8) ∧
    decodeTableWord 16 0x100 = some .tSel := by decide
theorem test_table_word_wire : decodeTableWord 16 0x3800 = some (.frame 0b0011#4 0x800#12) ∧
    decodeTableWord 16 0xB800 = none := by decide
theorem test_fetch_host :
    (answer (step (State.reset.withFetchWord 20 0x10000))).map (fun t => (t.en, t.host.program)) =
      some (true, []) := by decide
theorem test_fetch_top :
    (answer (step (State.reset.withFetchWord 10 0x100))).map (fun t => (t.csn, t.ph)) = some (false, .csSetup) ∧
    (answer (step (State.reset.withFetchWord 10 0x200))).map (fun t => (t.csn, t.ph)) = some (true, .csLeGap) ∧
    (answer (step ({ State.reset with en := true }.withFetchWord 10 0x338))).map (fun t => (t.sr, t.ph)) =
      some (0x38#8, .shLow) := by decide
theorem test_fetch_wire :
    (answer (step (State.reset.withFetchWord 16 0x3FFF))).map (fun t => t.dac.frames) =
      some [.word 0x3FFF#16] := by decide

/-! ## Witnesses: for every statement with hypotheses, states and operands that meet them all, clause by clause -/

/-- The state after the accept tick of `WRITEV 0x800` from "I": section 3.1, cycle 2. -/
theorem witness_accepted : exec (.writev 0x800#12) initialized = .next setup := by rfl

/-- "I" with the host's next cycle scripted. -/
def scripted (inp : Inputs) : State := { initialized with host := { script := [inp], program := [] } }

/-- As many silent cycles as a call of the default configuration takes. -/
def wholeCall : List Inputs := List.replicate 39 silent

/-- The observer's state after a partial frame. -/
def lostDac : Dac :=
  { bits := [], frames := [.undefined], pending := some .undefined, latched := some .undefined, tainted := true }

theorem witness_HostWordsDecodeByMatchAndMask :
    (0x0FFFF#20 &&& 0xF0000#20 = 0x00000#20) ∧ (0x1FFFF#20 &&& 0xF0000#20 = 0x10000#20) ∧
    (0x2FFFF#20 &&& 0xF0000#20 = 0x20000#20) ∧ (0x3FFFF#20 &&& 0xF0000#20 = 0x30000#20) ∧
    (0x40000#20 &&& 0xC0000#20 = 0x40000#20) ∧ (0x7FFFF#20 &&& 0xC0000#20 = 0x40000#20) ∧
    (0x80000#20 &&& 0x80000#20 = 0x80000#20) ∧ (0xFFFFF#20 &&& 0x80000#20 = 0x80000#20) := by decide
theorem witness_WireWordsDecodeOrAreRejected : (0b0111#4).msb = false ∧ (0b1000#4).msb = true := by decide
theorem witness_DecodeOfEncodeIsIdentity :
    (Instr.frame 0b0111#4 0xFFF#12).wf = true ∧ (Instr.writev 0xFFF#12).wf = true := by decide
theorem witness_EncodeOfDecodeClearsIgnoredBits : decodeWire 0x7FFF#16 = .ok (.frame 0b0111#4 0xFFF#12) := by rfl
theorem witness_AssemblerWords : 4095 ≤ 4095 ∧ 4095 < 4096 := by decide
theorem witness_FrameLayout : 11 < 12 ∧ 3 < 4 ∧ (1 ≤ 1 ∧ 1 ≤ 16) ∧ (1 ≤ 16 ∧ 16 ≤ 16) := by decide
theorem witness_StepRunsThePresentedCommand :
    (scripted (presents 0x20FFF#20)).cfg.wf = true ∧ (scripted (presents 0x20FFF#20)).ph = .idle ∧
    (scripted (presents 0x20FFF#20)).inputs.rst = false ∧ (scripted (presents 0x20FFF#20)).inputs.cmdValid = true ∧
    decodeHost (scripted (presents 0x20FFF#20)).inputs.cmd = .writev 0xFFF#12 := by decide
/-- The six clauses, in order. -/
theorem witness_StepRunsTheIssuedMicroCommand :
    (silent.rst = false ∧ (presents 0x10000#20).rst = false ∧ (presents 0x2FFFF#20).rst = false) ∧
    (State.reset.ph = .idle ∧ (presents 0x10000#20).cmdValid = true ∧ decodeHost (presents 0x10000#20).cmd = .init) ∧
    (initialized.ph = .idle ∧ (presents 0x2FFFF#20).cmdValid = true ∧
      decodeHost (presents 0x2FFFF#20).cmd = .writev 0xFFF#12 ∧ initialized.len = true) ∧
    ({ initialized with ph := .leNorm }.ph = .leNorm ∧ { initialized with ph := .leNorm }.dly = 0#_) ∧
    (setup.ph = .csSetup ∧ setup.dly = 0#_) ∧
    ({ lowByteDone with byteidx := false }.ph = .xdone ∧ { lowByteDone with byteidx := false }.byteidx = false) ∧
    ({ lowByteDone with ph := .csHold }.ph = .csHold ∧ { lowByteDone with ph := .csHold }.dly = 0#_) := by decide
theorem witness_StepRunsTheFrameOnTheWire :
    ({ lowByteDone with ph := .csHold }.cfg.wf = true ∧ silent.rst = false ∧
      { lowByteDone with ph := .csHold }.ph = .csHold ∧ { lowByteDone with ph := .csHold }.dly = 0#_ ∧
      { lowByteDone with ph := .csHold }.en = true ∧ { lowByteDone with ph := .csHold }.csn = false ∧
      { lowByteDone with ph := .csHold }.dac.bits = wireBits 0x3800#16) ∧
    decodeWire 0x3800#16 = .ok (.frame 0b0011#4 0x800#12) := ⟨by decide, rfl⟩
theorem witness_TickIsTotalOrRefusesTheConfiguration :
    midFrame.cfg.wf = true ∧ { midFrame with cfg := withCtrl 0b1000#4 }.cfg.wf = false := by decide
theorem witness_ParametersNeverChange : (answer (step (scripted (presents 0x20FFF#20)))).isSome = true := by decide
/-- In `IDLE`, at the end of `SH_LOW`, and elsewhere: two different cycles each. -/
theorem witness_InputsAreReadOnlyWhereTheyCount :
    (silent.rst = { silent with miso := true, cmd := 0x10000#20 }.rst ∧ initialized.ph = .idle ∧
      silent.cmdValid = { silent with miso := true, cmd := 0x10000#20 }.cmdValid ∧ ¬ silent.cmdValid = true) ∧
    (silent.rst = (presents 0x10000#20).rst ∧ { midFrame with ph := .shLow, sck := false }.ph = .shLow ∧
      { midFrame with ph := .shLow, sck := false }.dly = 0#_ ∧ silent.miso = (presents 0x10000#20).miso) ∧
    (midFrame.ph ≠ .idle ∧ midFrame.ph ≠ .shLow) := by decide
theorem witness_OnlyMicroCommandsWriteTheTransport :
    ((answer (blockTick (presents 0x20800#20) initialized)).isSome = true ∧
      transportSignal (presents 0x20800#20) initialized = some .tSel) ∧
    ((answer (blockTick silent lowByteDone)).isSome = true ∧ transportSignal silent lowByteDone = none ∧
      silent.rst = false ∧ lowByteDone.ph ≠ .shLow ∧ lowByteDone.ph ≠ .shHigh) := by decide
theorem witness_ResetGivesTheTabulatedValues : resetCycle.rst = true := by decide
theorem witness_ResetAtThePins : { resetCycle with cmdValid := true, miso := true }.rst = true := by decide
theorem witness_HeldResetStaysReset :
    midFrame.cfg.wf = true ∧ [resetCycle, resetCycle] ≠ [] ∧ ∀ inp ∈ [resetCycle, resetCycle], inp.rst = true := by
  decide
/-- The clauses in order; every one starts in `IDLE` with `rst = 0`. -/
theorem witness_IdleRule :
    (silent.rst = false ∧ initialized.ph = .idle ∧ latchLow.ph = .idle) ∧ silent.cmdValid = false ∧
    ((presents 0x0FFFF#20).rst = false ∧ (presents 0x0FFFF#20).cmdValid = true ∧
      decodeHost (presents 0x0FFFF#20).cmd = .nop) ∧
    decodeHost (presents 0x30000#20).cmd = .reserved3 ∧ decodeHost (presents 0x7FFFF#20).cmd = .reserved47 3#2 ∧
    decodeHost (presents 0xFFFFF#20).cmd = .reserved8F 7#3 ∧ decodeHost (presents 0x1BEEF#20).cmd = .init ∧
    (decodeHost (presents 0x20000#20).cmd = .writev 0x000#12 ∧ latchLow.len = false) ∧
    (decodeHost (presents 0x2FFFF#20).cmd = .writev 0xFFF#12 ∧ initialized.len = true) := by decide
theorem witness_LatchNormalisedExit :
    silent.rst = false ∧ { initialized with ph := .leNorm }.ph = .leNorm ∧ { initialized with ph := .leNorm }.dly = 0#_ := by
  decide
theorem witness_SetupExitStartsTheHighByte :
    silent.rst = false ∧ setup.ph = .csSetup ∧ setup.dly = 0#_ ∧ setup.en = true ∧
    { setup with en := false }.ph = .csSetup ∧ { setup with en := false }.dly = 0#_ ∧ { setup with en := false }.en = false := by
  decide
theorem witness_ClockEdges :
    silent.rst = false ∧ midFrame.dly = 0#_ ∧ { midFrame with ph := .shLow }.ph = .shLow ∧
    ({ midFrame with bitcnt := 1#4 }.ph = .shHigh ∧ { midFrame with bitcnt := 1#4 }.bitcnt = 1#4) ∧
    ({ midFrame with bitcnt := 0#4 }.ph = .shHigh ∧ { midFrame with bitcnt := 0#4 }.bitcnt ≠ 1#4) := by decide
theorem witness_ByteDoneRule :
    silent.rst = false ∧ (lowByteDone.ph = .xdone ∧ lowByteDone.byteidx = true) ∧
    ({ lowByteDone with byteidx := false }.byteidx = false ∧ { lowByteDone with byteidx := false }.en = true) ∧
    ({ lowByteDone with byteidx := false, en := false }.ph = .xdone ∧
      { lowByteDone with byteidx := false, en := false }.byteidx = false ∧
      { lowByteDone with byteidx := false, en := false }.en = false) := by decide
theorem witness_EndOfCallRules :
    silent.rst = false ∧ lowByteDone.dly = 0#_ ∧ { lowByteDone with ph := .csHold }.ph = .csHold ∧
    { initialized with ph := .csLeGap }.ph = .csLeGap ∧ { initialized with ph := .lePulse, len := false }.ph = .lePulse := by
  decide
theorem witness_DwellLastsExactlyItsCount :
    (silent.rst = false ∧ { setup with dly := 1#_ }.ph.timed = true ∧ { setup with dly := 1#_ }.dly ≠ 0#_) ∧
    { setup with dly := 1#_ }.cfg.wf = true ∧ (∀ inp ∈ [silent], inp.rst = false) ∧
    [silent].length ≤ { setup with dly := 1#_ }.dly.toNat := by decide
theorem witness_HungIsLeftOnlyByReset :
    hungState.cfg.wf = true ∧ hungState.ph = .hung ∧ ∀ inp ∈ [presents 0x10000#20], inp.rst = false := by decide
theorem witness_NopAndReservedChangeNothing :
    (presents 0x0FFFF#20).rst = false ∧ initialized.ph = .idle ∧ (presents 0x0FFFF#20).cmdValid = true ∧
    (presents 0x0FFFF#20).cmd.extractLsb' 16 4 = 0x0#4 ∧ 0x3#4 ≤ (presents 0x30000#20).cmd.extractLsb' 16 4 ∧
    0x3#4 ≤ (presents 0xFFFFF#20).cmd.extractLsb' 16 4 := by decide
theorem witness_InitializeEnablesTheBus : (answer (exec .init midFrame)).isSome = true := by decide
theorem witness_WriteVoltageAcceptTick : initialized.len = true ∧ latchLow.len = false := by decide
theorem witness_ExchangeStartsOrHangs : lowByteDone.en = true ∧ State.reset.en = false := by decide
theorem witness_FrameIsTakenByTheDac :
    lowByteDone.dac.tainted = false ∧ { initialized with dac := lostDac }.dac.tainted = true := by decide
/-- Every instruction answers a next state, and for every clause some instruction is none of those it excepts. -/
theorem witness_FrameOfEveryInstruction :
    (∀ i ∈ [Instr.nop, .init, .writev 0xFFF#12, .reserved3, .reserved47 3#2, .reserved8F 7#3, .tInit, .tSel, .tDesel,
      .tXchg 0xFF#8, .frame 0b0111#4 0xFFF#12], (answer (exec i midFrame)).isSome = true) ∧
    (Instr.nop ≠ .init ∧ Instr.nop ≠ .tInit ∧ Instr.nop ≠ .tSel ∧ Instr.nop ≠ .tDesel) ∧
    (∀ b, Instr.nop ≠ .tXchg b) ∧ (∀ c, Instr.nop ≠ .writev c) ∧ (∀ c d, Instr.nop ≠ .frame c d) :=
  ⟨by decide, by decide, nofun, nofun, nofun⟩

/-! ### Witnesses of the invariants and of the statements about runs -/

theorem midFrame_inv : midFrame.Inv := by constructor <;> decide
theorem midFrame_shiftInv : midFrame.ShiftInv := by constructor <;> decide
theorem midFrame_wireInv : midFrame.WireInv := by constructor <;> decide
theorem midFrame_framesInv : midFrame.FramesInv := ⟨nofun, nofun⟩
theorem midFrame_sound : midFrame.Sound := by constructor <;> decide
theorem midFrame_dutiful : Dutiful silent midFrame := ⟨nofun, nofun⟩

theorem witness_ReachableInvariantsAreKept :
    midFrame.Inv ∧ hungState.ph = .hung ∧ (answer (tick silent hungState)).isSome = true ∧
    (answer (step { midFrame with host := { script := [silent], program := [] } })).isSome = true ∧
    (answer (tick silent midFrame)).isSome = true ∧
    (answer (ticks [presents 0x10000#20, presents 0x20800#20, silent] midFrame.resetRegs)).isSome = true :=
  ⟨midFrame_inv, by decide, by decide, by decide, by decide, by decide⟩
theorem witness_CallInFlightSendsItsOwnFrame :
    midFrame.Inv ∧ midFrame.ShiftInv ∧ midFrame.WireInv ∧ (answer (tick silent midFrame)).isSome = true :=
  ⟨midFrame_inv, midFrame_shiftInv, midFrame_wireInv, by decide⟩
/-- A phase entered, a nonzero counter, a counter at 0, and a phase that stays. -/
theorem witness_DwellCounterFitsItsRegister :
    silent.rst = false ∧
    ((answer (tick silent { initialized with ph := .csLeGap })).map (fun t => (t.ph, t.ph.dwell t.cfg)) =
        some (.lePulse, some 2) ∧ { initialized with ph := .csLeGap }.ph ≠ .lePulse) ∧
    ({ setup with dly := 1#_ }.ph.timed = true ∧ { setup with dly := 1#_ }.dly ≠ 0#_ ∧
      (answer (tick silent { setup with dly := 1#_ })).map State.ph = some { setup with dly := 1#_ }.ph) ∧
    (setup.ph.timed = true ∧ setup.dly = 0#_ ∧ (answer (tick silent setup)).isSome = true) := by decide
/-- Just before the frame 0x3800 is seen whole. -/
theorem witness_EveryFrameSeenCarriesTheNibble :
    { lowByteDone with ph := .csHold }.Inv ∧ { lowByteDone with ph := .csHold }.WireInv ∧
    { lowByteDone with ph := .csHold }.FramesInv ∧
    (answer (tick silent { lowByteDone with ph := .csHold })).isSome = true :=
  ⟨by constructor <;> decide, by constructor <;> decide, ⟨nofun, nofun⟩, by decide⟩
theorem witness_DutifulHostKeepsTheBlockSound :
    midFrame.Inv ∧ midFrame.WireInv ∧ midFrame.Sound ∧ Dutiful silent midFrame ∧
    (answer (tick silent midFrame)).isSome = true :=
  ⟨midFrame_inv, midFrame_wireInv, midFrame_sound, midFrame_dutiful, by decide⟩
theorem witness_ObserverStaysUndefined :
    { initialized with dac := lostDac }.dac.Lost ∧
    (answer (ticks [presents 0x20800#20, silent, resetCycle] { initialized with dac := lostDac })).isSome = true :=
  ⟨⟨rfl, rfl, rfl⟩, by decide⟩
theorem witness_ResetMidFrameIsAPartialFrame :
    midFrame.cfg.wf = true ∧ resetCycle.rst = true ∧ midFrame.en = true ∧ midFrame.csn = false ∧
    midFrame.dac.bits.length ≠ 16 := by decide
/-- The hypotheses, together, of the statements about a whole call: WaveformOfACall, CountsOfACall,
SixteenPulsesCarryTheFrame, StateAfterAReturnedCall, DacReceivesExactlyTheFrame and EventOrderOfACall. -/
theorem witness_whole_call :
    (initialized.cfg.wf = true ∧ initialized.ph = .idle ∧ initialized.en = true ∧ initialized.len = true ∧
      initialized.sck = false ∧ initialized.csn = true ∧ initialized.dac.bits = [] ∧
      initialized.dac.tainted = false ∧ wholeCall.length = busyCycles initialized.cfg ∧ 0 < 8 ∧ 7 < 8) ∧
    exec (.writev 0x800#12) initialized = .next setup ∧ NoReset wholeCall :=
  ⟨by decide, witness_accepted, fun _ h => by rw [List.eq_of_mem_replicate h]; rfl⟩
/-- And the run of that call answers a next state. -/
theorem witness_DacReceivesExactlyTheFrame : (answer (ticks wholeCall setup)).isSome = true := by decide
/-- `exchangeByte(0x38)` from `CS_SETUP`, sixteen cycles; a sample index at each end of its range. -/
theorem witness_ExchangeByteContract :
    (setup.cfg.wf = true ∧ setup.en = true ∧ setup.sck = false ∧
      (List.replicate 16 silent).length = 16 * setup.cfg.tHalf ∧ 0 < 8 ∧ 7 < 8) ∧
    exec (.tXchg 0x38#8) setup = .next { setup with sr := 0x38#8, bitcnt := 8#4, ph := .shLow } ∧
    NoReset (List.replicate 16 silent) :=
  ⟨by decide, rfl, fun _ h => by rw [List.eq_of_mem_replicate h]; rfl⟩
/-- Section 3.4, with as many cycles as the setup dwell and one more. -/
theorem witness_WriteBeforeInitHangsForever :
    (State.reset.cfg.wf = true ∧ State.reset.ph = .idle ∧ State.reset.en = false ∧ State.reset.len = true ∧
      State.reset.cfg.tCss ≤ [silent].length ∧ State.reset.cfg.tCss ≤ [silent, presents 0x10000#20].length) ∧
    exec (.writev 0x123#12) State.reset =
      .next { State.reset with csn := false, fr := 0x3123#16, ph := .csSetup } ∧
    NoReset [silent, presents 0x10000#20] :=
  ⟨by decide, rfl, by unfold NoReset; decide⟩
/-- Section 3.5: before the end of `LE_NORM`, and at it. -/
theorem witness_LatchFoundAssertedIsNormalised :
    (latchLow.cfg.wf = true ∧ latchLow.ph = .idle ∧ latchLow.len = false ∧
      ([] : List Inputs).length < latchLow.cfg.tLeh ∧ [silent].length = latchLow.cfg.tLeh) ∧
    exec (.writev 0x800#12) latchLow = .next { initialized with fr := 0x3800#16, ph := .leNorm } ∧
    NoReset [silent] :=
  ⟨by decide, rfl, by unfold NoReset; decide⟩
/-- Section 3.5: a whole call that finds Latch-Enable asserted takes 40 cycles. -/
theorem witness_CallFindingLatchAssertedReturns :
    (latchLow.cfg.wf = true ∧ latchLow.ph = .idle ∧ latchLow.en = true ∧ latchLow.len = false ∧ latchLow.sck = false ∧
      latchLow.dac.bits = [] ∧ latchLow.dac.tainted = false ∧
      (silent :: wholeCall).length = latchLow.cfg.tLeh + busyCycles latchLow.cfg ∧ 0 < 8 ∧ 7 < 8) ∧
    exec (.writev 0x800#12) latchLow = .next { initialized with fr := 0x3800#16, ph := .leNorm } ∧
    NoReset (silent :: wholeCall) :=
  ⟨by decide, rfl, by unfold NoReset; decide⟩
theorem witness_InputLineReachesOnlyTheShiftRegister :
    midFrame.Inv ∧ List.Forall₂ SameButMiso [silent, silent] [{ silent with miso := true }, silent] ∧
    (answer (ticks [silent, silent] midFrame)).isSome = true :=
  ⟨midFrame_inv, .cons ⟨rfl, rfl, rfl⟩ (.cons ⟨rfl, rfl, rfl⟩ .nil), by decide⟩
/-- The end state of V8, which left `mosi` high, with a received byte. -/
def afterV8 : State :=
  { initialized with mosi := true, sr := 0xFF#8, fr := 0x3FFF#16, byteidx := true, tc := true }

/-- "I" and the end state of V8. -/
theorem witness_CallsAreIndependent :
    initialized.Inv ∧ afterV8.Inv ∧
    (initialized.cfg = afterV8.cfg ∧ initialized.cfg.wf = true ∧ initialized.ph = .idle ∧ afterV8.ph = .idle ∧
      initialized.en = true ∧ afterV8.en = true ∧ (answer (exec (.writev 0x000#12) initialized)).isSome = true ∧
      (answer (exec (.writev 0x000#12) afterV8)).isSome = true ∧
      wholeCall.length = busyCycles initialized.cfg) ∧ NoReset wholeCall :=
  ⟨by constructor <;> decide, by constructor <;> decide, by decide,
    fun _ h => by rw [List.eq_of_mem_replicate h]; rfl⟩
/-- One tick in which each of the three lines changes: Chip-Select, Latch-Enable, Clock. -/
theorem witness_AtMostOneLineEventPerTick :
    silent.rst = false ∧
    ({ lowByteDone with ph := .csHold }.ph ≠ .idle ∧
      (answer (tick silent { lowByteDone with ph := .csHold })).map State.csn = some true) ∧
    ({ initialized with ph := .csLeGap }.ph ≠ .idle ∧
      (answer (tick silent { initialized with ph := .csLeGap })).map State.len = some false) ∧
    (midFrame.ph ≠ .idle ∧ (answer (tick silent midFrame)).map State.sck = some false) := by decide
theorem witness_EagerHostPresentsInOrder :
    { State.reset with host := { script := [], program := [0x10000#20, 0x20800#20] } }.host.script = [] ∧
    { State.reset with host := { script := [], program := [0x10000#20, 0x20800#20] } }.host.program =
      0x10000#20 :: [0x20800#20] ∧
    (answer (step { State.reset with host := { script := [], program := [0x10000#20, 0x20800#20] } })).isSome = true := by
  decide
/-- A run from reset into the middle of a call, and the same run in two parts; and one that ends in `IDLE`. -/
theorem witness_LinesFromResetAndRunsCompose :
    ((answer (ticks [presents 0x10000#20, presents 0x20800#20, silent] midFrame.resetRegs)).map
      fun t => (t.en, t.ph)) = some (true, .shLow) ∧
    ((answer (ticks [presents 0x10000#20] midFrame.resetRegs)).map fun t => t.outputs.ready) = some true ∧
    (answer (ticks ([presents 0x10000#20] ++ [presents 0x20800#20, silent]) midFrame.resetRegs)).isSome = true := by
  decide
theorem witness_HungRunIsNeverOver :
    hungState.ph = .hung ∧ (∀ inp ∈ hungState.host.script, inp.rst = false) ∧
    ∃ t, Sys2Proof.core.run 2 hungState = .next t := ⟨by decide, by decide, _, rfl⟩

end Sys2Proof.Tests
end

/-! The parameters along the machine's steps (00_scope.md R4). -/

namespace Sys2Proof.Machine

/-- Every edge of the phase graph is composed of register operations, and none of them writes the parameters (R4). -/
theorem Edge.cfg_eq {inp : Inputs} {s t : State} (h : Edge inp s t) : t.cfg = s.cfg := by
  cases h <;> simp

/-- The observer that watches a tick leaves the parameters alone too (R4, R136). -/
theorem tick_cfg_eq {inp : Inputs} {s t : State} (h : tick inp s = .next t) : t.cfg = s.cfg := by
  obtain ⟨-, u, hedge, rfl⟩ := tick_edge h
  exact (observe_cfg s u).trans hedge.cfg_eq

/-- Settles O15: a step is a tick from the state whose host agent has moved on, and the host agent holds no parameter. -/
theorem parametersNeverChange : Obligations.ParametersNeverChange := by
  unfold Obligations.ParametersNeverChange
  intro s t h
  calc
    t.cfg = s.advanceHost.cfg := tick_cfg_eq h
    _ = s.cfg := s.advanceHost_cfg

end Sys2Proof.Machine

/-! The registers along the machine's ticks: the reset of R24, the invariants of R26 and the dwell counter of R18. -/

namespace Sys2Proof.Machine

/-! ### Ticks and runs in general -/

/-- What every tick keeps, every run keeps (R120). -/
theorem ticks_induction {P : State → Prop} (keep : ∀ inp s t, P s → tick inp s = .next t → P t) :
    ∀ (ins : List Inputs) (s t : State), P s → ticks ins s = .next t → P t := by
  intro ins
  induction ins with
  | nil =>
    intro s t hs h
    cases h
    exact hs
  | cons inp rest ih =>
    intro s t hs h
    cases hu : tick inp s with
    | next u =>
      rw [ticks_cons hu] at h
      exact ih u t (keep inp s u hs hu) h
    | fault r => nomatch r
    | refused r => simp [ticks, hu] at h

/-- The phase graph leaves a tick no choice (R120, R138). -/
theorem Edge.unique {inp : Inputs} {s t u : State} (ht : Edge inp s t) (hu : Edge inp s u) : t = u :=
  Host.Outcome.next.inj ((edge_blockTick ht).symm.trans (edge_blockTick hu))

/-- The observer writes no register (R136). -/
theorem observe_sameRegs (a b : State) : b.SameRegs (observe a b) := ⟨rfl, rfl, rfl, rfl, rfl, rfl⟩

/-- The host agent writes no register (R9). -/
theorem State.advanceHost_sameRegs (s : State) : s.SameRegs s.advanceHost := ⟨rfl, rfl, rfl, rfl, rfl, rfl⟩

/-! ### The reset (R24) -/

/-- Settles O18: with `rst = 1` the tick takes the reset edge, and `State.resetRegs` is the table of R24. -/
theorem resetGivesTheTabulatedValues : Obligations.ResetGivesTheTabulatedValues := by
  unfold Obligations.ResetGivesTheTabulatedValues
  intro inp s hr
  exact edge_blockTick (.reset hr)

/-! ### The invariants (R26) -/

/-- R26 read off the phase: the levels of three lines are functions of `PH`, `BITCNT` is 0 outside `SH_LOW` and
`SH_HIGH`, and the rest says in which phases the dwell counter is 0 and the Transport is enabled. -/
structure State.PhaseInv (s : State) : Prop where
  never_norm : s.ph ≠ .leNorm
  clock : s.sck = decide (s.ph = .shHigh)
  select : s.csn = !s.ph.selected
  latch : s.len = decide (s.ph ≠ .lePulse)
  bits : if s.ph = .shLow ∨ s.ph = .shHigh then 1 ≤ s.bitcnt.toNat ∧ s.bitcnt.toNat ≤ 8 else s.bitcnt = 0#4
  rest : s.ph = .idle → s.dly = 0#_
  enabled : s.ph = .shLow ∨ s.ph = .shHigh ∨ s.ph = .xdone ∨ s.ph = .csHold → s.en = true
  disabled : s.en = false → s.tc = false
  hung : s.ph = .hung → s.en = false

theorem State.Inv.phaseInv {s : State} (h : s.Inv) : s.PhaseInv where
  never_norm := h.never_norm
  clock := Bool.eq_iff_iff.mpr (by simpa using h.clock_high)
  select := Bool.eq_iff_iff.mpr (by simpa using not_congr h.selected)
  latch := Bool.eq_iff_iff.mpr (by simpa using not_congr h.latch_low)
  bits := by
    have hle := h.bitcnt_le
    split
    next hp => exact h.bitcnt_pos.mpr hp
    next hp =>
      have h0 := mt h.bitcnt_pos.mp hp
      bv_omega
  rest hp := by
    obtain ⟨-, -, -, -, hd⟩ := h.idle_rest hp
    exact hd
  enabled := h.exchange_enabled
  disabled he := (h.disabled he).1
  hung hp := (h.hung hp).1

theorem State.PhaseInv.inv {s : State} (h : s.PhaseInv) : s.Inv where
  idle_rest hp := by
    have hb := h.bits
    simp only [hp, reduceCtorEq, or_self, if_false] at hb
    simp [h.clock, h.select, h.latch, hp, Phase.selected, hb, h.rest hp]
  selected := by simp [h.select]
  latch_low := by simp [h.latch]
  never_norm := h.never_norm
  clock_high := by simp [h.clock]
  disabled he := by
    have hp : s.ph ≠ .shHigh := fun hp => by simp [h.enabled (.inr (.inl hp))] at he
    exact ⟨h.disabled he, by simp [h.clock, hp]⟩
  hung hp := ⟨h.hung hp, by simp [h.select, hp, Phase.selected]⟩
  never_both := by
    rintro ⟨hc, hl⟩
    have hp : s.ph = .lePulse := by simpa [h.latch] using hl
    simp [h.select, hp, Phase.selected] at hc
  bitcnt_le := by
    have hb := h.bits
    split at hb
    · exact hb.2
    · simp [hb]
  bitcnt_pos := by
    have hb := h.bits
    split at hb
    next hp => exact iff_of_true hb hp
    next hp => exact iff_of_false (by simp [hb]) hp
  exchange_enabled := h.enabled

/-- The invariants read the registers only. -/
theorem State.Inv.of_sameRegs {s t : State} (h : s.Inv) (hst : s.SameRegs t) : t.Inv := by
  obtain ⟨htr, hlen, -, -, hph, hdly⟩ := hst
  simp only [State.transport, TransportRegs.mk.injEq] at htr
  obtain ⟨hen, hsck, -, hcsn, -, hbit, htc⟩ := htr
  have hrest (hd : s.dly = 0#_) : t.dly = 0#_ := BitVec.eq_of_toNat_eq (by rw [← hdly, hd]; simp)
  obtain ⟨idle_rest, selected, latch_low, never_norm, clock_high, disabled, hung, never_both, bitcnt_le, bitcnt_pos,
    exchange_enabled⟩ := h
  simp only [hen, hsck, hcsn, hbit, htc, hlen, hph] at *
  refine ⟨fun hp => ?_, selected, latch_low, never_norm, clock_high, disabled, hung, never_both, bitcnt_le,
    bitcnt_pos, exchange_enabled⟩
  obtain ⟨h1, h2, h3, h4, hd⟩ := idle_rest hp
  exact ⟨h1, h2, h3, h4, hrest hd⟩

/-- The reset registers meet the invariants, whatever was there before (R24, R26). -/
theorem State.resetRegs_inv (s : State) : s.resetRegs.Inv := by
  apply State.PhaseInv.inv
  constructor <;> simp [Phase.selected]

/-- Every edge of the phase graph writes the levels that its new phase shows (R26, R138). -/
theorem Edge.keeps_phaseInv {inp : Inputs} {s t : State} (h : Edge inp s t) (hs : s.PhaseInv) : t.PhaseInv := by
  obtain ⟨never_norm, clock, select, latch, bits, rest, enabled, disabled, hung⟩ := id hs
  cases h with
  | reset hr => exact s.resetRegs_inv.phaseInv
  | quiet hr hp hn => exact hs
  | hungStay hr hp => exact hs
  | stay hr ht hd =>
    refine ⟨never_norm, clock, select, latch, bits, fun hp => ?_, enabled, disabled, hung⟩
    rw [State.countDown_ph] at hp
    simp [hp, Phase.timed] at ht
  | writeNorm hr hp hv code hi hl => simp [latch, hp] at hl
  | normDone hr hp hd => exact absurd hp never_norm
  | fall hr hp hd hb =>
    simp only [hp, or_true, if_true] at bits
    have hcount : 1 ≤ (s.bitcnt - 1#4).toNat ∧ (s.bitcnt - 1#4).toNat ≤ 8 := by bv_omega
    constructor <;> simp_all [Phase.selected]
  | init | write | startHigh | hangHigh | rise | lastFall | startLow | hangLow | hold | deselect | latchDown
  | latchUp =>
    constructor <;> simp_all [Phase.selected]

/-- A tick of the whole machine keeps the invariants (R26). -/
theorem tick_keeps_inv {inp : Inputs} {s t : State} (hs : s.Inv) (h : tick inp s = .next t) : t.Inv := by
  obtain ⟨-, u, hedge, rfl⟩ := tick_edge h
  exact (hedge.keeps_phaseInv hs.phaseInv).inv.of_sameRegs (observe_sameRegs s u)

/-- A tick without reset leaves `HUNG` as it is (R131). -/
theorem tick_hung {inp : Inputs} {s t : State} (hp : s.ph = .hung) (hr : inp.rst = false)
    (h : tick inp s = .next t) : t = s := by
  obtain ⟨-, u, hedge, rfl⟩ := tick_edge h
  rw [hedge.unique (.hungStay hr hp)]
  exact observe_quiet rfl rfl rfl

/-- Settles O38: the reset registers meet the invariants, every tick keeps them, and a step is a tick from the state
whose host agent has moved on. -/
theorem reachableInvariantsAreKept : Obligations.ReachableInvariantsAreKept := by
  unfold Obligations.ReachableInvariantsAreKept
  refine ⟨fun s t hs h => ?_, fun _ _ _ => tick_keeps_inv, fun ins s t h => ?_, fun inp s t hp hr h => ?_⟩
  · exact tick_keeps_inv (hs.of_sameRegs s.advanceHost_sameRegs) h
  · exact ticks_induction (fun _ _ _ => tick_keeps_inv) ins _ t s.resetRegs_inv h
  · rw [tick_hung hp hr h, hp]

/-- Settles O37: `State.reset` is itself a reset state, its shift register is idle, and its observer has seen
nothing. -/
theorem invariantsHoldAtReset : Obligations.InvariantsHoldAtReset := by
  unfold Obligations.InvariantsHoldAtReset
  refine ⟨State.resetRegs_inv, State.reset.resetRegs_inv, ?_, ?_, ?_, ?_⟩
  · exact ⟨nofun, nofun⟩
  · exact ⟨fun hp => absurd rfl hp, rfl⟩
  · exact ⟨nofun, nofun⟩
  · exact ⟨fun hp => absurd rfl hp, rfl⟩

/-! ### The dwell counter (R18) -/

/-- The dwell of every timed phase is allowed by R5. -/
theorem Phase.dwell_dwellOk {c : Config} {p : Phase} {n : Nat} (hw : c.wf = true) (hn : p.dwell c = some n) :
    c.dwellOk n = true := by
  obtain ⟨hHalf, hCss, hCsh, hCsle, hLew, hLeh⟩ := Config.wf_dwellOk hw
  cases p <;> cases hn <;> assumption

/-- An edge into another, timed phase loads that phase's dwell (R18, R132). -/
theorem Edge.dly_of_entered {inp : Inputs} {s t : State} {n : Nat} (h : Edge inp s t) (hne : t.ph ≠ s.ph)
    (hn : t.ph.dwell s.cfg = some n) : t.dly.toNat = (BitVec.ofNat s.cfg.dlyW (n - 1)).toNat := by
  cases h with
  | reset | lastFall | latchUp | hangHigh | hangLow => cases hn
  | stay | quiet | init | hungStay => exact absurd rfl hne
  | write | writeNorm | normDone | startHigh | rise | fall | startLow | hold | deselect | latchDown => cases hn; rfl

/-- In a timed phase a tick that finds 0 takes an exit edge (R132). -/
theorem Edge.leaves {inp : Inputs} {s t : State} (h : Edge inp s t) (hr : inp.rst = false) (ht : s.ph.timed = true)
    (hd : s.dly = 0#_) : t.ph ≠ s.ph := by
  cases h with
  | reset hr' => simp [hr] at hr'
  | stay _ _ hd' => exact absurd hd hd'
  | quiet _ hp | init _ hp | write _ hp | writeNorm _ hp | startLow _ hp | hangLow _ hp | hold _ hp | hungStay _ hp =>
    simp [hp, Phase.timed] at ht
  | normDone _ hp | startHigh _ hp | hangHigh _ hp | rise _ hp | fall _ hp | lastFall _ hp | deselect _ hp
  | latchDown _ hp | latchUp _ hp => simp [hp]

/-- The counter grows only where another phase is entered (R18). -/
theorem Edge.dly_le {inp : Inputs} {s t : State} (h : Edge inp s t) (hp : t.ph = s.ph) :
    t.dly.toNat ≤ s.dly.toNat := by
  cases h with
  | reset hr => simp
  | stay hr ht hd =>
    have := State.countDown_dly_toNat hd
    omega
  | quiet | init | hungStay | hangHigh | hangLow | lastFall | latchUp => exact Nat.le_refl _
  | write _ hp' | writeNorm _ hp' | normDone _ hp' | startHigh _ hp' | rise _ hp' | fall _ hp' | startLow _ hp'
  | hold _ hp' | deselect _ hp' | latchDown _ hp' => simp [hp'] at hp

/-- Settles O40: in a timed phase the tick counts down, or it finds 0 and leaves; what it enters it loads with a dwell
that R5 allows, which the register holds whole. -/
theorem dwellCounterFitsItsRegister : Obligations.DwellCounterFitsItsRegister := by
  unfold Obligations.DwellCounterFitsItsRegister
  intro inp s t hr h
  obtain ⟨hw, u, hedge, rfl⟩ := tick_edge h
  refine ⟨?_, fun n hne hn => ?_, fun ht hd => ?_, hedge.leaves hr, hedge.dly_le⟩
  · rw [← tick_cfg_eq h]
    exact (observe s u).dly.isLt
  · have hok := Phase.dwell_dwellOk hw hn
    have hload : u.dly.toNat = n - 1 := (hedge.dly_of_entered hne hn).trans (Config.dwellOk_load hok)
    simp only [Config.dwellOk, Bool.and_eq_true, decide_eq_true_eq] at hok
    show u.dly.toNat + 1 = n
    omega
  · rw [hedge.unique (.stay hr ht hd)]
    exact ⟨rfl, State.countDown_dly_toNat hd⟩

end Sys2Proof.Machine

/-! The frame on the wire (20_memory.md): where the inputs count, which lines an edge changes, what keeps a call's bits
in order, how far the input line reaches, and the sixteen clock pulses of a call. -/

namespace Sys2Proof.Machine

/-! ### The inputs a tick reads (R49, R120) -/

/-- `IDLE` reads the presented word only (R49, R121). -/
theorem idleTick_congr {a b : Inputs} (s : State) (hv : a.cmdValid = b.cmdValid)
    (hc : a.cmdValid = true → a.cmd = b.cmd) : idleTick a s = idleTick b s := by
  cases ha : a.cmdValid with
  | false => simp [idleTick, ← hv, ha]
  | true => simp [idleTick, ← hv, ha, hc ha]

/-- `SH_LOW` reads the input line only at its exit (R50, R125). -/
theorem shLowTick_congr {a b : Inputs} {s : State} (hm : s.dly = 0#_ → a.miso = b.miso) :
    shLowTick a s = shLowTick b s := by
  by_cases hd : s.dly = 0#_
  · simp only [shLowTick, hm hd]
  · simp only [shLowTick, dwell_stay hd]

/-- Settles O16: reset reads no other input, and of the phases' rules only those of `IDLE` and `SH_LOW` have the inputs
as an argument. -/
theorem inputsAreReadOnlyWhereTheyCount : Obligations.InputsAreReadOnlyWhereTheyCount := by
  unfold Obligations.InputsAreReadOnlyWhereTheyCount
  intro a b s hr hidle hlow
  have hblock : blockTick a s = blockTick b s := by
    simp only [blockTick, ← hr]
    cases hp : s.ph with
    | idle => simp only [idleTick_congr s (hidle hp).1 (hidle hp).2]
    | shLow => simp only [shLowTick_congr (hlow hp)]
    | _ => rfl
  simp only [tick, hblock]

/-! ### The lines an edge changes (R47) -/

/-- Settles O57: Chip-Select changes on the exits of `LE_NORM` and `CS_HOLD` alone, Latch-Enable on those of `CS_LE_GAP`
and `LE_PULSE`, the clock on those of `SH_LOW` and `SH_HIGH`; only a falling edge drives a data bit besides. -/
theorem atMostOneLineEventPerTick : Obligations.AtMostOneLineEventPerTick := by
  unfold Obligations.AtMostOneLineEventPerTick
  intro inp s t hr hp h
  obtain ⟨-, u, hedge, rfl⟩ := tick_edge h
  simp only [observe_csn, observe_sck, observe_mosi, observe_len]
  cases hedge with
  | reset hr' => simp [hr] at hr'
  | quiet _ hp' | init _ hp' | write _ hp' | writeNorm _ hp' => exact absurd hp' hp
  | stay | startHigh | startLow | hangHigh | hangLow | hold | hungStay => simp
  | normDone | deselect => simp
  | latchDown | latchUp => simp
  | rise | lastFall => simp
  | fall => simp

/-! ### The call in progress sends its own frame (R41, R82, R136) -/

/-- What a tick shows the observer: the end of a Chip-Select-low interval clears its bits, a rising clock edge in one
appends the data line (R136). -/
theorem observe_dac_bits (a b : State) :
    (observe a b).dac.bits =
      if a.en && !a.csn && b.csn then []
      else if a.en && !a.csn && !a.sck && b.sck then b.dac.bits ++ [a.mosi] else b.dac.bits := by
  cases he : a.en with
  | false => simp [observe, he]
  | true =>
    simp only [observe, he, if_true, Dac.see, Dac.sample, Dac.endInterval, Dac.take, Dac.takePartial, Dac.latch,
      Bool.true_and]
    split_ifs <;> rfl

/-- While no bit of the present interval can be out, none is counted (R26, R136). -/
theorem State.PhaseInv.sampledCount_eq_zero {s : State} (h : s.PhaseInv) (hs : s.en = false ∨ s.csn = true) :
    s.sampledCount = 0 := by
  have hen := h.enabled
  have hcsn := h.select
  cases hp : s.ph <;> simp_all [State.sampledCount, Phase.selected]

/-- In `SH_LOW` the data line holds the frame's bit that the observer has not been shown yet (R41, R82). -/
theorem State.ShiftInv.next_shown {s : State} (hs : s.ShiftInv) (hp : s.ph = .shLow) (h1 : 1 ≤ s.bitcnt.toNat)
    (h8 : s.bitcnt.toNat ≤ 8) :
    (wireBits s.fr).take (s.sampledCount + 1) = (wireBits s.fr).take s.sampledCount ++ [s.mosi] := by
  have hlt : s.sampledCount < (wireBits s.fr).length := by
    simp only [State.sampledCount, hp, wireBits_length]
    split <;> omega
  rw [List.take_succ_eq_append_getElem hlt, wireBits_getElem, hs.data_line (.inl hp)]
  cases hb : s.byteidx with
  | false =>
    rw [State.currentByte, hb, if_neg Bool.false_ne_true, highByte_getLsbD _ _ (by omega)]
    simp only [State.sampledCount, hp, hb, Bool.false_eq_true, if_false]
    congr 3
    omega
  | true =>
    rw [State.currentByte, hb, if_pos rfl, lowByte_getLsbD _ _ (by omega)]
    simp only [State.sampledCount, hp, hb, if_true]
    congr 3
    omega

/-- An exchange starts with its byte's first bit on the data line and all eight in the shift register (R124). -/
theorem State.shiftInv_of_load {s : State} (hm : s.mosi = s.currentByte.msb) (hsr : s.sr = s.currentByte)
    (hb : s.bitcnt = 8#4) (hp : s.ph = .shLow) : s.ShiftInv where
  data_line _ := by simp [hm, hb, BitVec.msb_eq_getLsbD_last]
  unsent _ := by
    simp only [hsr, State.unsentBits, hp, hb]
    exact Unsent.load _

/-- Outside the bit-level phases the relation claims nothing. -/
theorem State.shiftInv_of_not_shifting {s : State} (hl : s.ph ≠ .shLow) (hh : s.ph ≠ .shHigh) : s.ShiftInv :=
  ⟨fun hp => (hp.elim hl hh).elim, fun hp => (hp.elim hl hh).elim⟩

/-- The relation reads the phase, the frame with its byte index, and the registers of the exchange, nothing else. -/
theorem State.ShiftInv.congr {s t : State} (hs : s.ShiftInv) (hp : t.ph = s.ph) (hm : t.mosi = s.mosi)
    (hb : t.bitcnt = s.bitcnt) (hr : t.sr = s.sr) (hf : t.fr = s.fr) (hi : t.byteidx = s.byteidx) : t.ShiftInv := by
  obtain ⟨data_line, unsent⟩ := hs
  constructor <;> simpa only [State.currentByte, State.unsentBits, hp, hm, hb, hr, hf, hi]

/-- Every edge keeps the relation between frame, shift register and data line: an exchange starts with it, the rising
edge takes one bit from the unsent ones, and the falling edge drives the next of them (R82, R124 to R126). -/
theorem Edge.keeps_shiftInv {inp : Inputs} {s t : State} (h : Edge inp s t) (hi : s.PhaseInv) (hs : s.ShiftInv) :
    t.ShiftInv := by
  have hbits := hi.bits
  cases h with
  | reset | writeNorm | write | normDone | hangHigh | hangLow | lastFall | hold | deselect | latchDown | latchUp =>
    exact State.shiftInv_of_not_shifting nofun nofun
  | quiet | hungStay => exact hs
  | stay | init => exact hs.congr rfl rfl rfl rfl rfl rfl
  | startHigh | startLow => exact State.shiftInv_of_load rfl rfl rfl rfl
  | rise _ hp _ =>
    simp only [hp, true_or, if_true] at hbits
    have hu := hs.unsent (.inl hp)
    rw [State.unsentBits, hp, if_neg nofun] at hu
    exact ⟨fun _ => hs.data_line (.inl hp), fun _ => Unsent.shift hbits.1 hbits.2 hu inp.miso⟩
  | fall _ hp _ hb =>
    simp only [hp, or_true, if_true] at hbits
    have hu := hs.unsent (.inr hp)
    rw [State.unsentBits, hp, if_pos rfl] at hu
    have hcount : (s.bitcnt - 1#4).toNat = s.bitcnt.toNat - 1 := by bv_omega
    have hpos : 1 ≤ s.bitcnt.toNat - 1 := by bv_omega
    have hleft : (s.fallClock.driveNextBit.enter .shLow s.cfg.tHalf).unsentBits = s.bitcnt.toNat - 1 := hcount
    refine ⟨fun _ => ?_, fun _ => ?_⟩
    · show s.sr.msb = s.currentByte.getLsbD ((s.bitcnt - 1#4).toNat - 1)
      rw [hcount]
      exact Unsent.next_bit hpos (by omega) hu
    · rw [hleft]
      exact hu

/-- A composed frame begins with the control nibble (R60, R101). -/
theorem composeFrame_nibble (ctrl : Nibble) (code : Code12) : (composeFrame ctrl code).extractLsb' 12 4 = ctrl := by
  rw [composeFrame_eq]
  exact BitVec.extractLsb'_append_eq_left

/-- Outside `IDLE` every edge leaves the frame alone; the edge that loads one loads the control nibble (R60, R103). -/
theorem Edge.keeps_nibble {inp : Inputs} {s t : State} (h : Edge inp s t)
    (hs : s.ph ≠ .idle → s.fr.extractLsb' 12 4 = s.cfg.ctrl) (hp : t.ph ≠ .idle) :
    t.fr.extractLsb' 12 4 = t.cfg.ctrl := by
  cases h with
  | reset | latchUp => exact absurd rfl hp
  | quiet _ hp' | init _ hp' => exact absurd hp' hp
  | write | writeNorm => exact composeFrame_nibble _ _
  | stay | hungStay => exact hs hp
  | normDone _ hp' | startHigh _ hp' | hangHigh _ hp' | rise _ hp' | fall _ hp' | lastFall _ hp' | startLow _ hp'
  | hangLow _ hp' | hold _ hp' | deselect _ hp' | latchDown _ hp' => exact hs (by simp [hp'])

/-- Where neither Chip-Select nor the clock rises, the observer is shown nothing new; so if the tick keeps the count,
and the frame while any bit is out, the bits shown stay the frame's (R136). -/
theorem shown_of_no_rise {s t : State} (hw : s.dac.bits = (wireBits s.fr).take s.sampledCount)
    (hc : t.csn = s.csn ∨ t.csn = false) (hk : t.sck = s.sck ∨ t.sck = false) (hd : t.dac = s.dac)
    (hn : t.sampledCount = s.sampledCount) (hf : t.fr = s.fr ∨ s.sampledCount = 0) :
    (observe s t).dac.bits = (wireBits t.fr).take t.sampledCount := by
  have hkept : (observe s t).dac.bits = s.dac.bits := by
    have hcsn : (s.en && !s.csn && t.csn) = false := by rcases hc with hc | hc <;> simp [hc]
    have hsck : (s.en && !s.csn && !s.sck && t.sck) = false := by rcases hk with hk | hk <;> simp [hk]
    simp [observe_dac_bits, hcsn, hsck, hd]
  rw [hkept, hw, hn]
  rcases hf with hf | hf
  · rw [hf]
  · simp [hf]

/-- Every edge keeps the observer's bits the frame's bits so far: they are cleared where Chip-Select rises, grow by the
data line's bit where the clock rises, and stay everywhere else (R41, R136). -/
theorem Edge.keeps_shown {inp : Inputs} {s t : State} (h : Edge inp s t) (hi : s.PhaseInv) (hs : s.ShiftInv)
    (hw : s.dac.bits = (wireBits s.fr).take s.sampledCount) :
    (observe s t).dac.bits = (wireBits t.fr).take t.sampledCount := by
  have hbits := hi.bits
  cases h with
  | reset =>
    show _ = []
    rw [observe_dac_bits]
    by_cases hseen : s.en = true ∧ s.csn = false
    · simp [hseen]
    · have hoff : s.en = false ∨ s.csn = true := by simpa [Decidable.imp_iff_not_or] using hseen
      have hzero := hi.sampledCount_eq_zero hoff
      rcases hoff with hoff | hoff <;> simp [hoff, hw, hzero]
  | deselect _ hp =>
    have hen := hi.enabled (by simp [hp])
    have hcsn : s.csn = false := by simp [hi.select, hp, Phase.selected]
    show _ = []
    simp [observe_dac_bits, hen, hcsn]
  | rise _ hp =>
    have hen := hi.enabled (by simp [hp])
    have hcsn : s.csn = false := by simp [hi.select, hp, Phase.selected]
    have hsck : s.sck = false := by simp [hi.clock, hp]
    simp only [hp, true_or, if_true] at hbits
    have hcount : ((s.riseClock inp.miso).enter .shHigh s.cfg.tHalf).sampledCount = s.sampledCount + 1 := by
      cases hx : s.byteidx <;> simp [State.sampledCount, hp, hx] <;> omega
    rw [hcount, State.enter_fr, State.riseClock_fr, hs.next_shown hp hbits.1 hbits.2, ← hw]
    simp [observe_dac_bits, hen, hcsn, hsck]
  | stay | quiet | hungStay => exact shown_of_no_rise hw (.inl rfl) (.inl rfl) rfl rfl (.inl rfl)
  | init _ hp =>
    have hcsn : s.csn = true := by simp [hi.select, hp, Phase.selected]
    exact shown_of_no_rise hw (.inl hcsn.symm) (.inr rfl) rfl rfl (.inl rfl)
  | write _ hp | writeNorm _ hp | normDone _ hp | startHigh _ hp | hangHigh _ hp | latchDown _ hp | latchUp _ hp =>
    have hzero : s.sampledCount = 0 := by simp [State.sampledCount, hp]
    exact shown_of_no_rise hw (by simp) (.inl rfl) rfl (by rw [hzero]; rfl) (.inr hzero)
  | fall _ hp _ hb =>
    simp only [hp, or_true, if_true] at hbits
    have hlast : s.bitcnt.toNat ≠ 1 := by bv_omega
    have hless : (s.bitcnt - 1#4).toNat = s.bitcnt.toNat - 1 := by bv_omega
    refine shown_of_no_rise hw (.inl rfl) (.inr rfl) rfl ?_ (.inl rfl)
    cases hx : s.byteidx <;> simp [State.sampledCount, hp, hless, hx] <;> omega
  | lastFall _ hp _ hb =>
    refine shown_of_no_rise hw (.inl rfl) (.inr rfl) rfl ?_ (.inl rfl)
    cases hx : s.byteidx <;> simp [State.sampledCount, hp, hb, hx]
  | startLow _ hp hb =>
    exact shown_of_no_rise hw (.inl rfl) (.inl rfl) rfl (by simp [State.sampledCount, hp, hb]) (.inl rfl)
  | hangLow _ hp _ he => simp [hi.enabled (.inr (.inr (.inl hp)))] at he
  | hold _ hp hb =>
    exact shown_of_no_rise hw (.inl rfl) (.inl rfl) rfl (by simp [State.sampledCount, hp, hb]) (.inl rfl)

/-- Settles O39: a tick takes an edge, which keeps both relations, and the observer writes nothing but its own
record. -/
theorem callInFlightSendsItsOwnFrame : Obligations.CallInFlightSendsItsOwnFrame := by
  unfold Obligations.CallInFlightSendsItsOwnFrame
  intro inp s t hi hs h
  obtain ⟨-, u, hedge, rfl⟩ := tick_edge h
  refine ⟨(hedge.keeps_shiftInv hi.phaseInv hs).congr rfl rfl rfl rfl rfl rfl, fun hw => ⟨?_, ?_⟩⟩
  · exact hedge.keeps_nibble hw.nibble
  · exact hedge.keeps_shown hi.phaseInv hs hw.shown

/-! ### How far the input line reaches (R50) -/

/-- The shift register and another value of it hold the same bits still to be sent, so they differ at most in bits the
input line has given (R50, R82). -/
def State.SameUnsent (s : State) (x : Byte) : Prop :=
  s.ph = .shLow ∨ s.ph = .shHigh → ∃ cur, Unsent s.unsentBits s.sr cur ∧ Unsent s.unsentBits x cur

/-- Whatever the shift register holds, its top bits are the unsent ones of some byte. -/
theorem exists_unsent (n : Nat) (sr : Byte) (h8 : n ≤ 8) : ∃ cur, Unsent n sr cur := by
  have hlt : sr.toNat / 2 ^ (8 - n) < 2 ^ n := by
    rw [Nat.div_lt_iff_lt_mul (by positivity), ← pow_add, Nat.add_sub_cancel' h8]
    exact sr.isLt
  have hle : 2 ^ n ≤ 2 ^ 8 := Nat.pow_le_pow_right (by decide) h8
  refine ⟨BitVec.ofNat 8 (sr.toNat / 2 ^ (8 - n)), ?_⟩
  rw [Unsent, BitVec.toNat_ofNat, Nat.mod_eq_of_lt (hlt.trans_le hle), Nat.mod_eq_of_lt hlt]

theorem State.sameUnsent_self {s : State} (h : s.bitcnt.toNat ≤ 8) : s.SameUnsent s.sr := by
  intro _
  obtain ⟨cur, hcur⟩ := exists_unsent s.unsentBits s.sr (by unfold State.unsentBits; split <;> omega)
  exact ⟨cur, hcur, hcur⟩

theorem State.sameUnsent_of_not_shifting {s : State} {x : Byte} (hl : s.ph ≠ .shLow) (hh : s.ph ≠ .shHigh) :
    s.SameUnsent x := fun hp => (hp.elim hl hh).elim

/-- An edge is taken under any level of the input line and from any received bits, and what it leaves differs in the
shift register at most: the falling edge alone puts a bit of it on a line, and that bit is an unsent one (R50, R82). -/
theorem Edge.of_miso {inp : Inputs} {s t : State} {x : Byte} (h : Edge inp s t) (m : Level) (hi : s.PhaseInv)
    (hx : s.SameUnsent x) :
    ∃ y, Edge { inp with miso := m } { s with sr := x } { t with sr := y } ∧ t.SameUnsent y := by
  have hbits := hi.bits
  have off {p : State} {y : Byte} := State.sameUnsent_of_not_shifting (s := p) (x := y)
  cases h with
  | reset hr => exact ⟨_, .reset hr, off nofun nofun⟩
  | stay hr ht hd => exact ⟨x, .stay hr ht hd, hx⟩
  | quiet hr hp hn => exact ⟨x, .quiet hr hp hn, hx⟩
  | init hr hp hv hi => exact ⟨x, .init hr hp hv hi, hx⟩
  | write hr hp hv code hi hl =>
    exact ⟨x, .write (inp := { inp with miso := m }) (s := { s with sr := x }) hr hp hv code hi hl, off nofun nofun⟩
  | writeNorm hr hp hv code hi hl =>
    exact ⟨x, .writeNorm (inp := { inp with miso := m }) (s := { s with sr := x }) hr hp hv code hi hl, off nofun nofun⟩
  | normDone hr hp hd => exact ⟨x, .normDone hr hp hd, off nofun nofun⟩
  | startHigh hr hp hd he => exact ⟨_, .startHigh hr hp hd he, State.sameUnsent_self (by simp)⟩
  | hangHigh hr hp hd he => exact ⟨x, .hangHigh hr hp hd he, off nofun nofun⟩
  | rise hr hp hd =>
    simp only [hp, true_or, if_true] at hbits
    obtain ⟨cur, hs, hx⟩ := hx (.inl hp)
    rw [State.unsentBits, hp, if_neg nofun] at hs hx
    exact ⟨_, .rise hr hp hd, fun _ => ⟨cur, hs.shift hbits.1 hbits.2 _, hx.shift hbits.1 hbits.2 _⟩⟩
  | fall hr hp hd hb =>
    simp only [hp, or_true, if_true] at hbits
    obtain ⟨cur, hs, hx⟩ := hx (.inr hp)
    rw [State.unsentBits, hp, if_pos rfl] at hs hx
    have hpos : 1 ≤ s.bitcnt.toNat - 1 := by bv_omega
    have hleft : (s.fallClock.driveNextBit.enter .shLow s.cfg.tHalf).unsentBits = s.bitcnt.toNat - 1 := by
      show (s.bitcnt - 1#4).toNat = _
      bv_omega
    have hmsb : x.msb = s.sr.msb := (hx.next_bit hpos (by omega)).trans (hs.next_bit hpos (by omega)).symm
    have hedge : Edge { inp with miso := m } { s with sr := x } _ := .fall hr hp hd hb
    simp only [State.driveNextBit, State.fallClock, hmsb] at hedge
    exact ⟨x, hedge, fun _ => ⟨cur, hleft ▸ hs, hleft ▸ hx⟩⟩
  | lastFall hr hp hd hb => exact ⟨x, .lastFall hr hp hd hb, off nofun nofun⟩
  | startLow hr hp hb he => exact ⟨_, .startLow hr hp hb he, State.sameUnsent_self (by simp)⟩
  | hangLow hr hp hb he => exact ⟨x, .hangLow hr hp hb he, off nofun nofun⟩
  | hold hr hp hb => exact ⟨x, .hold hr hp hb, off nofun nofun⟩
  | deselect hr hp hd => exact ⟨x, .deselect hr hp hd, off nofun nofun⟩
  | latchDown hr hp hd => exact ⟨x, .latchDown hr hp hd, off nofun nofun⟩
  | latchUp hr hp hd => exact ⟨x, .latchUp hr hp hd, off nofun nofun⟩
  | hungStay hr hp => exact ⟨x, .hungStay hr hp, hx⟩

theorem SameButMiso.eq_update {a b : Inputs} (h : SameButMiso a b) : b = { a with miso := b.miso } := by
  obtain ⟨hrst, hvalid, hcmd⟩ := h
  simp [hrst, hvalid, hcmd]

/-- The observer does not see the shift register (R136). -/
theorem observe_sr_update (a b : State) (x y : Byte) :
    observe { a with sr := x } { b with sr := y } = { observe a b with sr := y } := rfl

/-- Runs that differ only in the input line, from states that differ only in received bits (R50, R137 item 6). -/
theorem ticks_of_sameButMiso {as bs : List Inputs} (hab : List.Forall₂ SameButMiso as bs) :
    ∀ {s t : State} {x : Byte}, s.Inv → s.SameUnsent x → ticks as s = .next t →
      ∃ y, ticks bs { s with sr := x } = .next { t with sr := y } := by
  induction hab with
  | nil =>
    intro s t x _ _ h
    cases h
    exact ⟨x, rfl⟩
  | @cons a b as bs hab _ ih =>
    intro s t x hi hx h
    cases hu : tick a s with
    | fault r => nomatch r
    | refused r => simp [ticks, hu] at h
    | next u =>
      rw [ticks_cons hu] at h
      obtain ⟨hw, v, hedge, rfl⟩ := tick_edge hu
      obtain ⟨y, hedge', hy⟩ := hedge.of_miso b.miso hi.phaseInv hx
      rw [← hab.eq_update] at hedge'
      obtain ⟨z, hz⟩ := ih (tick_keeps_inv hi hu) hy h
      have htick := tick_of_edge (s := { s with sr := x }) hw hedge'
      rw [observe_sr_update] at htick
      exact ⟨z, (ticks_cons htick).trans hz⟩

/-- Settles O55: both runs start from the same shift register. -/
theorem inputLineReachesOnlyTheShiftRegister : Obligations.InputLineReachesOnlyTheShiftRegister := by
  unfold Obligations.InputLineReachesOnlyTheShiftRegister
  intro as bs s t hi hab h
  obtain ⟨y, hy⟩ := ticks_of_sameButMiso hab hi (State.sameUnsent_self hi.bitcnt_le) h
  exact ⟨_, hy, rfl⟩

/-! ### The waveform of a call (R134) -/

/-- The run over `ins` from `s` shows `rows` in its first cycles, one each, and goes on from `u`. -/
structure Shows (ins : List Inputs) (s : State) (rows : List WaveRow) (u : State) : Prop where
  trace_eq : (trace ins s).map State.waveRow = rows ++ (trace (ins.drop rows.length) u).map State.waveRow
  ticks_eq : ticks ins s = ticks (ins.drop rows.length) u

theorem Shows.trans {ins : List Inputs} {s u v : State} {rows rows' : List WaveRow} (h : Shows ins s rows u)
    (h' : Shows (ins.drop rows.length) u rows' v) : Shows ins s (rows ++ rows') v := by
  have hdrop : ins.drop (rows ++ rows').length = (ins.drop rows.length).drop rows'.length := by simp
  constructor
  · rw [h.trace_eq, h'.trace_eq, hdrop, List.append_assoc]
  · rw [h.ticks_eq, h'.ticks_eq, hdrop]

/-- A run that shows `rows` goes on with whatever the run from there shows. -/
theorem Shows.extend {ins : List Inputs} {s u : State} {rows rows' : List WaveRow} {P : State → Prop}
    (h : Shows ins s rows u) (next : ∃ v, Shows (ins.drop rows.length) u rows' v ∧ P v) :
    ∃ v, Shows ins s (rows ++ rows') v ∧ P v := by
  obtain ⟨v, h', hv⟩ := next
  exact ⟨v, h.trans h', hv⟩

/-- One tick shows the levels of its cycle. -/
theorem Shows.edge {inp : Inputs} {rest : List Inputs} {s t : State} (hw : s.cfg.wf = true) (h : Edge inp s t) :
    Shows (inp :: rest) s [s.waveRow] (observe s t) := by
  have htick := tick_of_edge hw h
  exact ⟨by rw [trace_cons htick]; rfl, ticks_cons htick⟩

/-- A whole dwell shows its levels for as many cycles as it was loaded with, and leaves by its exit edge (R132). -/
theorem Shows.dwell {n : Nat} {ins : List Inputs} {s : State} (exit : State → State) (hw : s.cfg.wf = true)
    (ht : s.ph.timed = true) (hd : s.dly.toNat = n - 1) (h1 : 1 ≤ n) (hn : NoReset ins) (hl : n ≤ ins.length)
    (he : ∀ inp, inp.rst = false → Edge inp { s with dly := 0#_ } (exit { s with dly := 0#_ })) :
    Shows ins s (List.replicate n s.waveRow) (observe { s with dly := 0#_ } (exit { s with dly := 0#_ })) := by
  obtain ⟨inp, -, -, htrace, hticks⟩ := dwell_run State.waveRow (fun _ _ => rfl) (fun s _ => exit s) (n - 1) s ins hd
    hw ht hn (by omega) he
  rw [Nat.sub_add_cancel h1] at htrace hticks
  exact ⟨by simpa using htrace, by simpa using hticks⟩

/-- A call is being sent: the Transport is enabled, Chip-Select is low, Latch-Enable high, the clock low (R105 to R108).
It holds where the phases of a call meet. -/
structure State.Sending (s : State) (c : Config) (f : Frame) : Prop where
  cfg : s.cfg = c
  fr : s.fr = f
  en : s.en = true
  csn : s.csn = false
  len : s.len = true
  sck : s.sck = false

/-- The row of the waveform while a call is being sent (R134). -/
theorem State.Sending.waveRow {s : State} {c : Config} {f : Frame} (h : s.Sending c f) :
    s.waveRow = { ph := s.ph, csN := false, sck := false, mosi := s.mosi, leN := true } := by
  simp [State.waveRow, State.outputs, h.csn, h.sck, h.len]

/-- The exchange of a byte has come to the start of a clock pulse, with `n` bits still to be clocked (R82, R125). -/
structure State.PulseDue (s : State) (cur : Byte) (n : Nat) : Prop where
  ph : s.ph = .shLow
  dly : s.dly.toNat = s.cfg.tHalf - 1
  bitcnt : s.bitcnt.toNat = n
  mosi : s.mosi = cur.getLsbD (n - 1)
  unsent : Unsent n s.sr cur

/-- A byte's lowest `n` bits in the order they are sent (R41). -/
def bitsBelow (cur : Byte) : Nat → List Level
  | 0 => []
  | n + 1 => cur.getLsbD n :: bitsBelow cur n

@[simp] theorem bitsBelow_length (cur : Byte) (n : Nat) : (bitsBelow cur n).length = n := by
  induction n with
  | zero => rfl
  | succ n ih => simp [bitsBelow, ih]

/-- The rows of the clock pulse of one bit (R134). -/
def pulseRows (h : Nat) (bit : Level) : List WaveRow :=
  List.replicate h { ph := .shLow, csN := false, sck := false, mosi := bit, leN := true } ++
  List.replicate h { ph := .shHigh, csN := false, sck := true, mosi := bit, leN := true }

@[simp] theorem pulseRows_length (h : Nat) (bit : Level) : (pulseRows h bit).length = 2 * h := by
  simp [pulseRows, Nat.two_mul]

/-- The rows of several clock pulses. -/
def pulsesRows (h : Nat) (bits : List Level) : List WaveRow := bits.flatMap (pulseRows h)

@[simp] theorem pulsesRows_length (h : Nat) (bits : List Level) : (pulsesRows h bits).length = 2 * h * bits.length := by
  simp [pulsesRows, List.length_flatMap]; ring

theorem bitsBelow_eq_map (cur : Byte) (n : Nat) :
    bitsBelow cur n = (List.range n).map fun j => cur.getLsbD (n - 1 - j) := by
  induction n with
  | zero => rfl
  | succ n ih =>
    rw [bitsBelow, ih, List.range_succ_eq_map, List.map_cons, List.map_map]
    congr 1
    exact List.map_congr_left fun j _ => congrArg cur.getLsbD (by simp only [Nat.succ_eq_add_one]; omega)

theorem highByte_bits (f : Frame) : bitsBelow (highByte f) 8 = (List.range 8).map fun j => f.getLsbD (15 - j) := by
  rw [bitsBelow_eq_map]
  refine List.map_congr_left fun j hj => ?_
  have hj := List.mem_range.mp hj
  rw [highByte_getLsbD _ _ (by omega)]
  congr 1
  omega

theorem lowByte_bits (f : Frame) : bitsBelow (lowByte f) 8 = (List.range 8).map fun j => f.getLsbD (7 - j) := by
  rw [bitsBelow_eq_map]
  exact List.map_congr_left fun j _ => lowByte_getLsbD _ _ (by omega)

/-- The bits of a frame are those of its high byte and then those of its low byte (R41). -/
theorem wireBits_eq (f : Frame) : wireBits f = bitsBelow (highByte f) 8 ++ bitsBelow (lowByte f) 8 := by
  rw [highByte_bits, lowByte_bits]
  rfl

theorem byteRows_high (h : Nat) (f : Frame) : byteRows h f 15 = pulsesRows h (bitsBelow (highByte f) 8) := by
  rw [highByte_bits, pulsesRows, List.flatMap_map]
  rfl

theorem byteRows_low (h : Nat) (f : Frame) : byteRows h f 7 = pulsesRows h (bitsBelow (lowByte f) 8) := by
  rw [lowByte_bits, pulsesRows, List.flatMap_map]
  rfl

/-- One clock pulse of a call: the next one is due, or the byte is done and its last bit is left on the data line
(R82, R125, R126). -/
theorem Shows.pulse {c : Config} {f : Frame} {cur : Byte} {n : Nat} {s : State} {ins : List Inputs} (hw : c.wf = true)
    (hs : s.Sending c f) (hp : s.PulseDue cur (n + 1)) (h8 : n + 1 ≤ 8) (hn : NoReset ins)
    (hl : 2 * c.tHalf ≤ ins.length) :
    ∃ u, Shows ins s (pulseRows c.tHalf (cur.getLsbD n)) u ∧ u.Sending c f ∧ u.byteidx = s.byteidx ∧
      (n = 0 → u.ph = .xdone ∧ u.mosi = cur.getLsbD 0) ∧ (n ≠ 0 → u.PulseDue cur n) := by
  obtain ⟨rfl, rfl, hen, hcsn, hlen, hsck⟩ := hs
  obtain ⟨hph, hdly, hbit, hmosi, hu⟩ := hp
  obtain ⟨u, -, htrace, hticks, hcfg, hfr, hidx, hbit', hlast, hnext, -, -, hcsn', hlen', hen', hsck', -⟩ :=
    bit_run s cur (n + 1) ins hw hen hsck hbit (by omega) h8 hu hph hdly hn hl
  rw [hcsn, hlen, hmosi] at htrace
  have hshows : Shows ins s (pulseRows s.cfg.tHalf (cur.getLsbD n)) u :=
    ⟨by rw [pulseRows_length]; exact htrace, by rw [pulseRows_length]; exact hticks⟩
  have hsending : u.Sending s.cfg s.fr :=
    ⟨hcfg, hfr, hen'.trans hen, hcsn'.trans hcsn, hlen'.trans hlen, hsck'⟩
  refine ⟨u, hshows, hsending, hidx, fun h0 => ?_, fun h0 => ?_⟩
  · obtain ⟨hp, -, hm, -⟩ := hlast (by omega)
    exact ⟨hp, by rw [hm, hmosi, h0]⟩
  · obtain ⟨hp, hd, hm, hu'⟩ := hnext (by omega)
    exact ⟨hp, hd.trans (by rw [hcfg]), hbit', hm, hu'⟩

/-- The clock pulses of a byte, from the first one of its lowest `n + 1` bits to the end of the exchange (R82). -/
theorem Shows.byte {c : Config} {f : Frame} {cur : Byte} (hw : c.wf = true) :
    ∀ (n : Nat) {s : State} {ins : List Inputs}, s.Sending c f → s.PulseDue cur (n + 1) → n + 1 ≤ 8 → NoReset ins →
      2 * c.tHalf * (n + 1) ≤ ins.length →
      ∃ u, Shows ins s (pulsesRows c.tHalf (bitsBelow cur (n + 1))) u ∧ u.Sending c f ∧ u.byteidx = s.byteidx ∧
        u.ph = .xdone ∧ u.mosi = cur.getLsbD 0 := by
  intro n
  induction n with
  | zero =>
    intro s ins hs hp h8 hn hl
    obtain ⟨u, hshows, hu, hidx, hdone, -⟩ := Shows.pulse hw hs hp h8 hn (by omega)
    refine ⟨u, ?_, hu, hidx, hdone rfl⟩
    simpa [pulsesRows, bitsBelow] using hshows
  | succ n ih =>
    intro s ins hs hp h8 hn hl
    rw [Nat.mul_add_one] at hl
    obtain ⟨u, hshows, hu, hidx, -, hnext⟩ := Shows.pulse hw hs hp h8 hn (by omega)
    obtain ⟨v, hshows, hv, hidx', hdone⟩ := hshows.extend
      (ih hu (hnext (by omega)) (by omega) (hn.drop _) (by rw [List.length_drop, pulseRows_length]; omega))
    exact ⟨v, hshows, hv, hidx'.trans hidx, hdone⟩

/-- An exchange starts with eight clock pulses due (R124). -/
theorem State.pulseDue_of_load {s : State} (b : Byte) (idx : Level) (hw : s.cfg.wf = true) :
    (((s.loadByte b).clearTc.setByteIdx idx).enter .shLow s.cfg.tHalf).PulseDue b 8 where
  ph := rfl
  dly := Config.dwellOk_load (Config.wf_dwellOk hw).1
  bitcnt := rfl
  mosi := by simp [BitVec.msb_eq_getLsbD_last]
  unsent := Unsent.load b

/-- `CS_SETUP`, which starts the exchange of the high byte (R123). -/
theorem Shows.setup {c : Config} {f : Frame} {s : State} {ins : List Inputs} (hw : c.wf = true) (hs : s.Sending c f)
    (hp : s.ph = .csSetup) (hd : s.dly.toNat = c.tCss - 1) (hn : NoReset ins) (hl : c.tCss ≤ ins.length) :
    ∃ u, Shows ins s
        (List.replicate c.tCss { ph := .csSetup, csN := false, sck := false, mosi := s.mosi, leN := true }) u ∧
      u.Sending c f ∧ u.PulseDue (highByte f) 8 ∧ u.byteidx = false := by
  obtain ⟨-, hCss, -⟩ := Config.wf_pos hw
  have hrow := hs.waveRow
  obtain ⟨rfl, rfl, hen, hcsn, hlen, hsck⟩ := hs
  have hshows := Shows.dwell (fun s => ((s.loadByte (highByte s.fr)).clearTc.setByteIdx false).enter .shLow s.cfg.tHalf)
    hw (by rw [hp]; rfl) hd hCss hn hl fun inp hr => .startHigh hr hp rfl hen
  rw [hrow, hp] at hshows
  refine ⟨_, hshows, ⟨rfl, rfl, hen, hcsn, hlen, hsck⟩, ?_, rfl⟩
  obtain ⟨h1, h2, h3, h4, h5⟩ :=
    State.pulseDue_of_load (s := { s with dly := 0#_ }) (highByte s.fr) false hw
  exact ⟨h1, h2, h3, h4, h5⟩

/-- `XDONE` after the high byte, which starts the exchange of the low byte (R127). -/
theorem Shows.xdoneHigh {c : Config} {f : Frame} {s : State} {ins : List Inputs} (hw : c.wf = true)
    (hs : s.Sending c f) (hp : s.ph = .xdone) (hb : s.byteidx = false) (hn : NoReset ins) (hl : 1 ≤ ins.length) :
    ∃ u, Shows ins s [{ ph := .xdone, csN := false, sck := false, mosi := s.mosi, leN := true }] u ∧
      u.Sending c f ∧ u.PulseDue (lowByte f) 8 ∧ u.byteidx = true := by
  have hrow := hs.waveRow
  obtain ⟨rfl, rfl, hen, hcsn, hlen, hsck⟩ := hs
  obtain ⟨inp, rest, rfl⟩ := List.exists_cons_of_length_pos hl
  have hshows := Shows.edge (rest := rest) hw (.startLow (hn inp (by simp)) hp hb hen)
  rw [hrow, hp] at hshows
  obtain ⟨h1, h2, h3, h4, h5⟩ := State.pulseDue_of_load (lowByte s.fr) true hw
  exact ⟨_, hshows, ⟨rfl, rfl, hen, hcsn, hlen, hsck⟩, ⟨h1, h2, h3, h4, h5⟩, rfl⟩

/-- A phase with a dwell of `n` ticks has just been entered, and the state shows `row` (R132, R133). -/
structure State.Entered (s : State) (c : Config) (row : WaveRow) (n : Nat) : Prop where
  cfg : s.cfg = c
  row : s.waveRow = row
  dly : s.dly.toNat = n - 1

section Tail
variable {c : Config} {row : WaveRow} {s : State} {ins : List Inputs}

/-- `CS_HOLD` (R128). -/
theorem Shows.hold (hw : c.wf = true) (hs : s.Entered c row c.tCsh) (hp : row.ph = .csHold) (hn : NoReset ins)
    (hl : c.tCsh ≤ ins.length) :
    ∃ u, Shows ins s (List.replicate c.tCsh row) u ∧
      u.Entered c { row with ph := .csLeGap, csN := true } c.tCsle := by
  obtain ⟨-, -, hCsh, -⟩ := Config.wf_pos hw
  obtain ⟨-, -, -, okCsle, -⟩ := Config.wf_dwellOk hw
  obtain ⟨rfl, rfl, hd⟩ := hs
  have hp : s.ph = .csHold := hp
  exact ⟨_, Shows.dwell (fun s => s.deassertSelect.enter .csLeGap s.cfg.tCsle) hw (by rw [hp]; rfl) hd hCsh hn hl
    fun inp hr => .deselect hr hp rfl, rfl, rfl, Config.dwellOk_load okCsle⟩

/-- `CS_LE_GAP` (R129). -/
theorem Shows.gap (hw : c.wf = true) (hs : s.Entered c row c.tCsle) (hp : row.ph = .csLeGap) (hn : NoReset ins)
    (hl : c.tCsle ≤ ins.length) :
    ∃ u, Shows ins s (List.replicate c.tCsle row) u ∧
      u.Entered c { row with ph := .lePulse, leN := false } c.tLew := by
  obtain ⟨-, -, -, hCsle, -⟩ := Config.wf_pos hw
  obtain ⟨-, -, -, -, okLew, -⟩ := Config.wf_dwellOk hw
  obtain ⟨rfl, rfl, hd⟩ := hs
  have hp : s.ph = .csLeGap := hp
  exact ⟨_, Shows.dwell (fun s => s.assertLatch.enter .lePulse s.cfg.tLew) hw (by rw [hp]; rfl) hd hCsle hn hl
    fun inp hr => .latchDown hr hp rfl, rfl, rfl, Config.dwellOk_load okLew⟩

/-- `LE_PULSE`, whose exit is the return (R130). -/
theorem Shows.latchPulse (hw : c.wf = true) (hs : s.Entered c row c.tLew) (hp : row.ph = .lePulse) (hn : NoReset ins)
    (hl : c.tLew ≤ ins.length) :
    ∃ u, Shows ins s (List.replicate c.tLew row) u ∧ u.waveRow = { row with ph := .idle, leN := true } := by
  obtain ⟨-, -, -, -, hLew, -⟩ := Config.wf_pos hw
  obtain ⟨rfl, rfl, hd⟩ := hs
  have hp : s.ph = .lePulse := hp
  exact ⟨_, Shows.dwell (fun s => s.deassertLatch.goto .idle) hw (by rw [hp]; rfl) hd hLew hn hl
    fun inp hr => .latchUp hr hp rfl, rfl⟩

/-- `XDONE` after the low byte (R127). -/
theorem Shows.xdoneLow (hw : c.wf = true) (hc : s.cfg = c) (hp : s.ph = .xdone) (hb : s.byteidx = true)
    (hn : NoReset ins) (hl : 1 ≤ ins.length) :
    ∃ u, Shows ins s [s.waveRow] u ∧ u.Entered c { s.waveRow with ph := .csHold } c.tCsh := by
  obtain ⟨-, -, okCsh, -⟩ := Config.wf_dwellOk hw
  subst hc
  obtain ⟨inp, rest, rfl⟩ := List.exists_cons_of_length_pos hl
  exact ⟨_, Shows.edge hw (.hold (hn inp (by simp)) hp hb), rfl, rfl, Config.dwellOk_load okCsh⟩

end Tail

/-- The end of a call: `XDONE` after the low byte, `CS_HOLD`, `CS_LE_GAP` and `LE_PULSE` up to the return (R127 to
R130). -/
theorem Shows.finish {c : Config} {f : Frame} {s : State} {ins : List Inputs} (hw : c.wf = true) (hs : s.Sending c f)
    (hp : s.ph = .xdone) (hb : s.byteidx = true) (hn : NoReset ins)
    (hl : 1 + c.tCsh + c.tCsle + c.tLew ≤ ins.length) :
    ∃ u, Shows ins s
        ([{ ph := .xdone, csN := false, sck := false, mosi := s.mosi, leN := true }] ++
          List.replicate c.tCsh { ph := .csHold, csN := false, sck := false, mosi := s.mosi, leN := true } ++
          List.replicate c.tCsle { ph := .csLeGap, csN := true, sck := false, mosi := s.mosi, leN := true } ++
          List.replicate c.tLew { ph := .lePulse, csN := true, sck := false, mosi := s.mosi, leN := false }) u ∧
      u.waveRow = { ph := .idle, csN := true, sck := false, mosi := s.mosi, leN := true } := by
  obtain ⟨u₁, h, hu⟩ := Shows.xdoneLow hw hs.cfg hp hb hn (by omega)
  rw [hs.waveRow, hp] at h hu
  obtain ⟨u₂, h, hu⟩ := h.extend (Shows.hold hw hu rfl (hn.drop _) (by simp; omega))
  obtain ⟨u₃, h, hu⟩ := h.extend (Shows.gap hw hu rfl (hn.drop _) (by simp; omega))
  exact h.extend (Shows.latchPulse hw hu rfl (hn.drop _) (by simp; omega))

/-- The waveform of a call from the start of `CS_SETUP` to the first cycle back in `IDLE` (R134). -/
theorem trace_call {c : Config} {f : Frame} {s : State} {ins : List Inputs} (hw : c.wf = true) (hs : s.Sending c f)
    (hp : s.ph = .csSetup) (hd : s.dly.toNat = c.tCss - 1) (hn : NoReset ins) (hl : ins.length = busyCycles c) :
    (trace ins s).map State.waveRow = callRows c f s.mosi := by
  unfold busyCycles at hl
  obtain ⟨u₁, h, hu, hdue, hhigh⟩ := Shows.setup hw hs hp hd hn (by omega)
  obtain ⟨u₂, h, hu, hidx, hp, hm₂⟩ := h.extend (Shows.byte hw 7 hu hdue (by omega) (hn.drop _) (by simp; omega))
  obtain ⟨u₃, h, hu, hdue, hlow⟩ := h.extend
    (Shows.xdoneHigh hw hu hp (hidx.trans hhigh) (hn.drop _) (by simp; omega))
  obtain ⟨u₄, h, hu, hidx, hp, hm₄⟩ := h.extend (Shows.byte hw 7 hu hdue (by omega) (hn.drop _) (by simp; omega))
  obtain ⟨u₅, h, hback⟩ := h.extend (Shows.finish hw hu hp (hidx.trans hlow) (hn.drop _) (by simp; omega))
  rw [highByte_getLsbD _ _ (by omega)] at hm₂
  rw [lowByte_getLsbD _ _ (by omega)] at hm₄
  rw [h.trace_eq, List.drop_of_length_le (by simp; omega), trace, List.map_singleton, hback, hm₂, hm₄]
  simp only [callRows, byteRows_high, byteRows_low, List.append_assoc]

/-! ### The clock pulses of a call (R41, R42) -/

/-- The levels of a row of the waveform (R133). -/
def WaveRow.lines (r : WaveRow) : Lines := { csN := r.csN, sck := r.sck, mosi := r.mosi, leN := r.leN }

/-- While the clock stays high it does not rise. -/
theorem pulses_high_append {l₁ l₂ : List Lines} (h : ∀ r ∈ l₁, r.sck = true) : pulses (l₁ ++ l₂) = pulses l₂ := by
  induction l₁ with
  | nil => rfl
  | cons a l₁ ih =>
    have ha : a.sck = true := h a (by simp)
    rw [List.cons_append, ← ih fun r hr => h r (by simp [hr])]
    cases l₁ ++ l₂ <;> simp [pulses, ha]

/-- While the clock stays low it does not rise. -/
theorem pulses_low_append {l₁ l₂ : List Lines} (h : ∀ r ∈ l₁, r.sck = false) (h₂ : ∀ r ∈ l₂.head?, r.sck = false) :
    pulses (l₁ ++ l₂) = pulses l₂ := by
  induction l₁ with
  | nil => rfl
  | cons a l₁ ih =>
    have hnext : ∀ r ∈ (l₁ ++ l₂).head?, r.sck = false := by
      cases l₁ with
      | nil => exact h₂
      | cons b l₁ => simpa using h b (by simp)
    rw [List.cons_append, ← ih fun r hr => h r (by simp [hr])]
    cases hl : l₁ ++ l₂ with
    | nil => rfl
    | cons b l => simp [pulses, hnext b (by simp [hl])]

theorem pulses_of_low {l : List Lines} (h : ∀ r ∈ l, r.sck = false) : pulses l = [] := by
  simpa [pulses] using pulses_low_append (l₂ := []) h (by simp)

/-- The rows of one clock pulse make one rising edge, with Chip-Select low and the bit on the data line. -/
theorem pulses_pulseRows_append {h : Nat} (h1 : 1 ≤ h) (bit : Level) (l : List Lines) :
    pulses ((pulseRows h bit).map WaveRow.lines ++ l) = (false, bit) :: pulses l := by
  obtain ⟨k, rfl⟩ := Nat.exists_eq_add_of_le' h1
  let low : Lines := { csN := false, sck := false, mosi := bit, leN := true }
  let high : Lines := { csN := false, sck := true, mosi := bit, leN := true }
  calc pulses ((pulseRows (k + 1) bit).map WaveRow.lines ++ l)
      = pulses (List.replicate k low ++ low :: (List.replicate (k + 1) high ++ l)) := by
        rw [pulseRows, List.replicate_succ']
        simp [WaveRow.lines, low, high]
    _ = pulses (low :: (List.replicate (k + 1) high ++ l)) :=
        pulses_low_append (fun r hr => by rw [List.eq_of_mem_replicate hr]) (by simp [low])
    _ = (false, bit) :: pulses (List.replicate (k + 1) high ++ l) := rfl
    _ = (false, bit) :: pulses l := by
        rw [pulses_high_append fun r hr => by rw [List.eq_of_mem_replicate hr]]

theorem pulses_pulsesRows_append {h : Nat} (h1 : 1 ≤ h) (bits : List Level) (l : List Lines) :
    pulses ((pulsesRows h bits).map WaveRow.lines ++ l) = (bits.map fun b => (false, b)) ++ pulses l := by
  induction bits with
  | nil => rfl
  | cons bit bits ih =>
    rw [pulsesRows, List.flatMap_cons, List.map_append, List.append_assoc, pulses_pulseRows_append h1, ← pulsesRows,
      ih]
    rfl

/-- The clock is low in the first row of a byte. -/
theorem pulsesRows_head_low {h : Nat} (h1 : 1 ≤ h) (cur : Byte) (l : List Lines) :
    ∀ r ∈ ((pulsesRows h (bitsBelow cur 8)).map WaveRow.lines ++ l).head?, r.sck = false := by
  obtain ⟨k, rfl⟩ := Nat.exists_eq_add_of_le' h1
  simp [pulsesRows, bitsBelow, pulseRows, List.replicate_succ, WaveRow.lines]

/-- The rising edges of the waveform of R134 are the clock pulses of its two bytes (R41). -/
theorem pulses_callRows {c : Config} (h1 : 1 ≤ c.tHalf) (f : Frame) (before : Level) :
    pulses ((callRows c f before).map WaveRow.lines) = (wireBits f).map fun b => (false, b) := by
  have low {r : WaveRow} {n : Nat} (hr : r.sck = false) (x : Lines) (hx : x ∈ List.replicate n r.lines) :
      x.sck = false := by rw [List.eq_of_mem_replicate hx]; exact hr
  simp only [callRows, byteRows_high, byteRows_low, List.map_append, List.append_assoc, List.map_replicate,
    ← List.replicate_one]
  rw [pulses_low_append (low rfl) (pulsesRows_head_low h1 _ _), pulses_pulsesRows_append h1,
    pulses_low_append (low rfl) (pulsesRows_head_low h1 _ _), pulses_pulsesRows_append h1, pulses_of_low, wireBits_eq,
    List.map_append, List.append_nil]
  simp only [List.forall_mem_append]
  exact ⟨low rfl, low rfl, low rfl, low rfl, low rfl⟩

/-- Settles O47: the accepted `WRITEV` starts the waveform of R134, and its rising edges are the frame's bits. -/
theorem sixteenPulsesCarryTheFrame : Obligations.SixteenPulsesCarryTheFrame := by
  unfold Obligations.SixteenPulsesCarryTheFrame
  intro code s u ins hw hp hen hlen hsck hu hn hl
  simp only [exec, execWritev, hlen, if_true, composeFrame_eq] at hu
  cases hu
  obtain ⟨hHalf, -⟩ := Config.wf_pos hw
  obtain ⟨-, okCss, -⟩ := Config.wf_dwellOk hw
  have hsend : (((s.loadFrame (s.cfg.ctrl ++ code)).assertSelect).enter .csSetup s.cfg.tCss).Sending s.cfg
      (s.cfg.ctrl ++ code) := ⟨rfl, rfl, hen, rfl, hlen, hsck⟩
  have hwave := trace_call hw hsend rfl (Config.dwellOk_load okCss) hn hl
  rw [← pulses_callRows hHalf _ _, ← hwave, List.map_map]
  rfl

end Sys2Proof.Machine

/-! The encodings (30_encoding.md): the words of each format by their fields, what the decoders answer row by row, the
rows of the opcode table, the assembler's words, and what a word that names no operation does. -/

namespace Sys2Proof

/-! ### Host words by their fields (R62) -/

@[simp] theorem opField_hostWord (op : BitVec 4) (arg : BitVec 16) : opField (hostWord op arg) = op :=
  BitVec.extractLsb'_append_eq_left

@[simp] theorem argField_hostWord (op : BitVec 4) (arg : BitVec 16) : argField (hostWord op arg) = arg :=
  BitVec.extractLsb'_append_eq_right

/-- The low bits of `OP` stand in a word from bit 16 on (R62). -/
theorem opField_low (w : HostWord) {n : Nat} (h : n ≤ 4) : (opField w).extractLsb' 0 n = w.extractLsb' 16 n := by
  ext i hi
  have h4 : i < 4 := by omega
  simp [opField, h4]

/-- A host word is its two fields (R62). -/
theorem hostWord_fields (w : HostWord) : hostWord (opField w) (argField w) = w :=
  BitVec.extractLsb'_append_extractLsb' (w := 4) (len := 16)

theorem hostWord_inj {op op' : BitVec 4} {arg arg' : BitVec 16} :
    hostWord op arg = hostWord op' arg' ↔ op = op' ∧ arg = arg' := by
  constructor
  · intro h
    exact ⟨by simpa using congrArg opField h, by simpa using congrArg argField h⟩
  · rintro ⟨rfl, rfl⟩
    rfl

/-- A mask acts on the two fields apart (R70). -/
theorem hostWord_and (op m : BitVec 4) (arg n : BitVec 16) :
    hostWord op arg &&& hostWord m n = hostWord (op &&& m) (arg &&& n) := BitVec.and_append

/-- A mask that is 0 on `ARG` reads `OP` alone (R70). -/
theorem mask_eq_iff (w : HostWord) (m v : BitVec 4) :
    w &&& hostWord m 0#16 = hostWord v 0#16 ↔ opField w &&& m = v := by
  conv_lhs => rw [← hostWord_fields w]
  simp [hostWord_and, hostWord_inj]

/-- The code of a canonical `WRITEV` is its whole operand (R64). -/
@[simp] theorem maskCode_append (hi : BitVec 4) (code : Code12) : maskCode (hi ++ code) = code :=
  BitVec.extractLsb'_append_eq_right

/-- Writing the masked code back clears `ARG[15:12]` (R64, R66). -/
theorem zero_append_maskCode (arg : BitVec 16) : 0#4 ++ maskCode arg = arg &&& 0x0FFF#16 := by
  have harg : arg.extractLsb' 12 4 ++ maskCode arg = arg :=
    BitVec.extractLsb'_append_extractLsb' (w := 4) (len := 12)
  have hmask : (0x0FFF#16 : BitVec 16) = 0#4 ++ BitVec.allOnes 12 := rfl
  conv_rhs => rw [← harg, hmask, BitVec.and_append, BitVec.and_zero, BitVec.and_allOnes]

/-! ### The host decoder, row by row (R70) -/

section HostRows
variable (arg : BitVec 16)

@[simp] theorem decodeHost_nop : decodeHost (hostWord 0x0#4 arg) = .nop := by simp [decodeHost]

@[simp] theorem decodeHost_init : decodeHost (hostWord 0x1#4 arg) = .init := by simp [decodeHost]

@[simp] theorem decodeHost_writev : decodeHost (hostWord 0x2#4 arg) = .writev (maskCode arg) := by simp [decodeHost]

@[simp] theorem decodeHost_reserved3 : decodeHost (hostWord 0x3#4 arg) = .reserved3 := by simp [decodeHost]

@[simp] theorem decodeHost_reserved47 (low : BitVec 2) :
    decodeHost (hostWord (0b01#2 ++ low) arg) = .reserved47 low := by
  have hop : ∀ low : BitVec 2, 0b01#2 ++ low ≠ 0x0#4 ∧ 0b01#2 ++ low ≠ 0x1#4 ∧ 0b01#2 ++ low ≠ 0x2#4 ∧
      0b01#2 ++ low ≠ 0x3#4 ∧ (0b01#2 ++ low).msb = false := by decide
  obtain ⟨h0, h1, h2, h3, hmsb⟩ := hop low
  simp only [decodeHost, opField_hostWord, h0, h1, h2, h3, hmsb, if_false, if_true, BitVec.extractLsb'_append_eq_right]

@[simp] theorem decodeHost_reserved8F (low : BitVec 3) :
    decodeHost (hostWord (0b1#1 ++ low) arg) = .reserved8F low := by
  have hop : ∀ low : BitVec 3, 0b1#1 ++ low ≠ 0x0#4 ∧ 0b1#1 ++ low ≠ 0x1#4 ∧ 0b1#1 ++ low ≠ 0x2#4 ∧
      0b1#1 ++ low ≠ 0x3#4 ∧ (0b1#1 ++ low).msb = true := by decide
  obtain ⟨h0, h1, h2, h3, hmsb⟩ := hop low
  simp only [decodeHost, opField_hostWord, h0, h1, h2, h3, hmsb, if_false, Bool.true_eq_false,
    BitVec.extractLsb'_append_eq_right]

end HostRows

/-- Every opcode belongs to one of the six rows (R70). -/
theorem opcode_cases (op : BitVec 4) :
    op = 0x0#4 ∨ op = 0x1#4 ∨ op = 0x2#4 ∨ op = 0x3#4 ∨ (∃ low : BitVec 2, op = 0b01#2 ++ low) ∨
      ∃ low : BitVec 3, op = 0b1#1 ++ low := by
  revert op
  decide

/-- The case split of R70: what holds of the words of each row holds of every word. -/
theorem hostWord_cases {P : HostWord → Prop} (nop : ∀ arg, P (hostWord 0x0#4 arg))
    (init : ∀ arg, P (hostWord 0x1#4 arg)) (writev : ∀ arg, P (hostWord 0x2#4 arg))
    (reserved3 : ∀ arg, P (hostWord 0x3#4 arg))
    (reserved47 : ∀ (low : BitVec 2) arg, P (hostWord (0b01#2 ++ low) arg))
    (reserved8F : ∀ (low : BitVec 3) arg, P (hostWord (0b1#1 ++ low) arg)) (w : HostWord) : P w := by
  rw [← hostWord_fields w]
  obtain h | h | h | h | ⟨low, h⟩ | ⟨low, h⟩ := opcode_cases (opField w) <;> rw [h]
  · exact nop _
  · exact init _
  · exact writev _
  · exact reserved3 _
  · exact reserved47 low _
  · exact reserved8F low _

/-- `INIT` has one opcode (R63). -/
theorem opField_of_decodeHost_init {w : HostWord} (h : decodeHost w = .init) : opField w = 0x1#4 := by
  cases w using hostWord_cases with
  | init arg => simp
  | nop | writev | reserved3 | reserved47 | reserved8F => simp at h

/-- `WRITEV` has one opcode (R63). -/
theorem opField_of_decodeHost_writev {w : HostWord} {code : Code12} (h : decodeHost w = .writev code) :
    opField w = 0x2#4 := by
  cases w using hostWord_cases with
  | writev arg => simp
  | nop | init | reserved3 | reserved47 | reserved8F => simp at h

/-- Settles O1: every mask reads the opcode alone, and its match leaves one row of the decoder. -/
theorem hostWordsDecodeByMatchAndMask : Obligations.HostWordsDecodeByMatchAndMask := by
  unfold Obligations.HostWordsDecodeByMatchAndMask
  intro w
  have row {op : BitVec 4} (h : opField w = op) : w = hostWord op (argField w) := by rw [← h, hostWord_fields]
  have full {v : BitVec 4} (h : w &&& hostWord 0xF#4 0#16 = hostWord v 0#16) : w = hostWord v (argField w) :=
    row (BitVec.and_allOnes.symm.trans ((mask_eq_iff w _ v).mp h))
  refine ⟨fun h => ?_, fun h => ?_, fun h => ?_, fun h => ?_, fun h => ?_, fun h => ?_⟩
  · rw [full (v := 0x0#4) h, decodeHost_nop]
  · rw [full (v := 0x1#4) h, decodeHost_init]
  · have hcode : maskCode (argField w) = w.extractLsb' 0 12 :=
      BitVec.extractLsb'_extractLsb'_of_le (by decide : 0 + 12 ≤ 16)
    rw [← hcode]
    conv_lhs => rw [full (v := 0x2#4) h, decodeHost_writev]
  · rw [full (v := 0x3#4) h, decodeHost_reserved3]
  · have hop : ∀ op : BitVec 4, op &&& 0xC#4 = 0x4#4 → op = 0b01#2 ++ op.extractLsb' 0 2 := by decide
    rw [← opField_low w (by decide)]
    conv_lhs => rw [row (hop _ ((mask_eq_iff w 0xC#4 0x4#4).mp h)), decodeHost_reserved47]
  · have hop : ∀ op : BitVec 4, op &&& 0x8#4 = 0x8#4 → op = 0b1#1 ++ op.extractLsb' 0 3 := by decide
    rw [← opField_low w (by decide)]
    conv_lhs => rw [row (hop _ ((mask_eq_iff w 0x8#4 0x8#4).mp h)), decodeHost_reserved8F]

/-- Settles O7: the tabulated words are words of their rows, the ignored bits as tabulated. -/
theorem tabulatedWordsDecode : Obligations.TabulatedWordsDecode :=
  ⟨decodeHost_nop 0x0000#16, decodeHost_nop 0xFFFF#16, decodeHost_init 0x0000#16, decodeHost_init 0xBEEF#16,
    decodeHost_writev 0x0800#16, decodeHost_writev 0xF800#16, decodeHost_reserved3 0x0000#16,
    decodeHost_reserved8F 0x1234#16 7#3, decodeHost_reserved8F 0x0000#16 0#3⟩

/-! ### Micro-commands, row by row (R67) -/

section TopRows
variable (byte : Byte)

/-- `TOP` of a micro-command is what it is composed of (R67). -/
theorem topWord_top (top : BitVec 2) : (topWord top byte).extractLsb' 8 2 = top := BitVec.extractLsb'_append_eq_left

@[simp] theorem decodeTop_tInit : decodeTop (topWord 0b00#2 byte) = .tInit := by simp [decodeTop, topWord_top]

@[simp] theorem decodeTop_tSel : decodeTop (topWord 0b01#2 byte) = .tSel := by simp [decodeTop, topWord_top]

@[simp] theorem decodeTop_tDesel : decodeTop (topWord 0b10#2 byte) = .tDesel := by simp [decodeTop, topWord_top]

@[simp] theorem decodeTop_tXchg : decodeTop (topWord 0b11#2 byte) = .tXchg byte := by
  have hbyte : (topWord 0b11#2 byte).extractLsb' 0 8 = byte := BitVec.extractLsb'_append_eq_right
  simp [decodeTop, topWord_top, hbyte]

end TopRows

/-- The case split of R67: what holds of the words of each `TOP` holds of every micro-command. -/
theorem topWord_cases {P : TWord → Prop} (tInit : ∀ byte, P (topWord 0b00#2 byte))
    (tSel : ∀ byte, P (topWord 0b01#2 byte)) (tDesel : ∀ byte, P (topWord 0b10#2 byte))
    (tXchg : ∀ byte, P (topWord 0b11#2 byte)) (w : TWord) : P w := by
  have hfields : topWord (w.extractLsb' 8 2) (w.extractLsb' 0 8) = w :=
    BitVec.extractLsb'_append_extractLsb' (w := 2) (len := 8)
  have htop : ∀ top : BitVec 2, top = 0b00#2 ∨ top = 0b01#2 ∨ top = 0b10#2 ∨ top = 0b11#2 := by decide
  rw [← hfields]
  obtain h | h | h | h := htop (w.extractLsb' 8 2) <;> rw [h]
  · exact tInit _
  · exact tSel _
  · exact tDesel _
  · exact tXchg _

/-- Settles O2: the four rows of R67. -/
theorem microCommandsDecodeByTop : Obligations.MicroCommandsDecodeByTop := fun byte =>
  ⟨decodeTop_tInit byte, decodeTop_tSel byte, decodeTop_tDesel byte, decodeTop_tXchg byte⟩

/-! ### Frames (R60) -/

/-- A frame with C3 = 0 is decoded into its two fields (R60). -/
theorem decodeWire_append {ctrl : Nibble} (h : ctrl.msb = false) (code : Code12) :
    decodeWire (ctrl ++ code) = .ok (.frame ctrl code) := by
  have hmsb : (ctrl ++ code).msb = false := BitVec.msb_append.trans (by simpa using h)
  simp only [decodeWire, hmsb, Bool.false_eq_true, if_false]
  rw [BitVec.extractLsb'_append_eq_left, BitVec.extractLsb'_append_eq_right]

/-- The wire decoder accepts exactly the words with C3 = 0, as well-formed frames whose two fields make the word
(R60). -/
theorem decodeWire_ok {w : Frame} {i : Instr} (h : decodeWire w = .ok i) :
    ∃ ctrl code, i = .frame ctrl code ∧ i.wf = true ∧ ctrl ++ code = w := by
  cases hmsb : w.msb with
  | true => simp [decodeWire, hmsb] at h
  | false =>
    simp only [decodeWire, hmsb, Bool.false_eq_true, if_false] at h
    cases h
    have hc3 : (w.extractLsb' 12 4).msb = w.msb := by simp [BitVec.msb_eq_getLsbD_last]
    exact ⟨_, _, rfl, by simp [Instr.wf, hc3, hmsb], BitVec.extractLsb'_append_extractLsb' (w := 4) (len := 12)⟩

/-! ### Decoding and encoding (R66) -/

/-- Settles O5: the canonical word of every constructor is a word of its own row. -/
theorem decodeOfEncodeIsIdentity : Obligations.DecodeOfEncodeIsIdentity := by
  unfold Obligations.DecodeOfEncodeIsIdentity
  intro i hwf
  cases i with
  | nop | init | writev | reserved3 | reserved47 | reserved8F => simp [encode, decode]
  | tInit | tSel | tDesel | tXchg => simp [encode, decode]
  | frame ctrl code =>
    have hc3 : ctrl.msb = false := by simpa [Instr.wf] using hwf
    exact decodeWire_append hc3 code

/-- The bits of a host word that carry its instruction: `OP`, and `ARG[11:0]` for `WRITEV` (R66). -/
theorem encode_decodeHost (w : HostWord) :
    encode (decodeHost w) = .host (if w &&& 0xF0000#20 = 0x20000#20 then w &&& 0xF0FFF#20 else w &&& 0xF0000#20) := by
  have hmask (op : BitVec 4) (arg : BitVec 16) : hostWord op arg &&& 0xF0000#20 = hostWord op 0#16 := by
    refine (hostWord_and op 0xF#4 arg 0#16).trans ?_
    rw [BitVec.and_zero]
    exact congrArg (hostWord · _) BitVec.and_allOnes
  have hif (op : BitVec 4) : hostWord op 0#16 = 0x20000#20 ↔ op = 0x2#4 := by
    refine (hostWord_inj (op' := 0x2#4) (arg' := 0#16)).trans ?_
    simp
  have h47 : ∀ low : BitVec 2, 0b01#2 ++ low ≠ 0x2#4 := by decide
  have h8F : ∀ low : BitVec 3, 0b1#1 ++ low ≠ 0x2#4 := by decide
  cases w using hostWord_cases with
  | writev arg =>
    have hcode : hostWord 0x2#4 arg &&& 0xF0FFF#20 = hostWord 0x2#4 (arg &&& 0x0FFF#16) :=
      hostWord_and 0x2#4 0xF#4 arg 0x0FFF#16
    simp [encode, hmask, hif, hcode, zero_append_maskCode]
  | nop | init | reserved3 | reserved47 low | reserved8F low => simp [encode, hmask, hif, h47, h8F]

/-- The bits of a micro-command that carry its instruction: `TOP`, and `TBYTE` for `T_XCHG` (R67). -/
theorem encode_decodeTop (w : TWord) :
    encode (decodeTop w) = .top (if w &&& 0x300#10 = 0x300#10 then w else w &&& 0x300#10) := by
  have hmask (top : BitVec 2) (byte : Byte) : topWord top byte &&& 0x300#10 = topWord top 0#8 := by
    refine (BitVec.and_append (x₁ := top) (x₂ := 0b11#2) (y₁ := byte) (y₂ := 0#8)).trans ?_
    rw [BitVec.and_zero]
    exact congrArg (topWord · _) BitVec.and_allOnes
  have hif : ∀ top : BitVec 2, topWord top 0#8 = 0x300#10 ↔ top = 0b11#2 := by decide
  cases w using topWord_cases with
  | tInit | tSel | tDesel | tXchg => simp [encode, hmask, hif]

/-- A decoded frame is the whole word (R60). -/
theorem encode_of_decodeWire {w : Frame} {i : Instr} (h : decodeWire w = .ok i) : encode i = .wire w := by
  obtain ⟨ctrl, code, rfl, -, rfl⟩ := decodeWire_ok h
  rfl

/-- Settles O6, format by format. -/
theorem encodeOfDecodeClearsIgnoredBits : Obligations.EncodeOfDecodeClearsIgnoredBits :=
  ⟨encode_decodeHost, encode_decodeTop, fun _ _ => encode_of_decodeWire⟩

/-! ### The rows of the opcode table -/

/-- Words that agree under every mask of a table match the same rows. -/
theorem matchingRows_congr {n : Nat} {rows : List (String × BitVec n × BitVec n)} {w v : BitVec n}
    (h : ∀ row ∈ rows, w &&& row.2.1 = v &&& row.2.1) : matchingRows rows w = matchingRows rows v := by
  unfold matchingRows
  rw [List.filter_congr fun row hrow => by rw [h row hrow]]

/-- The canonical word of an instruction matches the instruction's own row alone. -/
theorem ownRow (i : Instr) : Laws.OwnRow.Statement i := by
  cases i with
  | nop => exact Laws.OwnRow.nop
  | init => exact Laws.OwnRow.init
  | writev code => exact Laws.OwnRow.writev code
  | reserved3 => exact Laws.OwnRow.reserved3
  | reserved47 low => exact Laws.OwnRow.reserved47 low
  | reserved8F low => exact Laws.OwnRow.reserved8F low
  | tInit => exact Laws.OwnRow.tInit
  | tSel => exact Laws.OwnRow.tSel
  | tDesel => exact Laws.OwnRow.tDesel
  | tXchg byte => exact Laws.OwnRow.tXchg byte
  | frame ctrl code => exact Laws.OwnRow.frame ctrl code

/-- The bits that re-encoding a host word clears lie outside every mask of the table (R66, R70). -/
theorem matchingRows_host (w : HostWord) : matchingRows hostRows w = [(decodeHost w).mnemonic] := by
  have hown := ownRow (decodeHost w)
  rw [Laws.OwnRow.Statement, encode_decodeHost] at hown
  rw [← hown]
  have hmasks : ∀ row ∈ hostRows, 0xF0FFF#20 &&& row.2.1 = row.2.1 ∧ 0xF0000#20 &&& row.2.1 = row.2.1 := by decide
  refine matchingRows_congr fun row hrow => ?_
  obtain ⟨hcode, hop⟩ := hmasks row hrow
  split
  · rw [BitVec.and_assoc, hcode]
  · rw [BitVec.and_assoc, hop]

/-- The bits that re-encoding a micro-command clears lie outside every mask of the table (R67). -/
theorem matchingRows_top (w : TWord) : matchingRows topRows w = [(decodeTop w).mnemonic] := by
  have hown := ownRow (decodeTop w)
  rw [Laws.OwnRow.Statement, encode_decodeTop] at hown
  rw [← hown]
  have hmasks : ∀ row ∈ topRows, 0x300#10 &&& row.2.1 = row.2.1 := by decide
  refine matchingRows_congr fun row hrow => ?_
  split
  · rfl
  · rw [BitVec.and_assoc, hmasks row hrow]

/-- A wire word that is decoded matches its row (R60). -/
theorem matchingRows_wire_ok {w : Frame} {i : Instr} (h : decodeWire w = .ok i) :
    matchingRows wireRows w = [i.mnemonic] := by
  obtain ⟨-, -, -, hwf, -⟩ := decodeWire_ok h
  have hown := ownRow i
  rw [Laws.OwnRow.Statement, encode_of_decodeWire h] at hown
  exact hown.2 hwf

/-- A wire word that is rejected has C3 = 1, which the mask reads (R5, R60). -/
theorem matchingRows_wire_error {w : Frame} {e : DecodeError} (h : decodeWire w = .error e) :
    matchingRows wireRows w = [] := by
  have hmsb : w.msb = true := by
    by_contra hmsb
    simp [decodeWire, hmsb] at h
  have hmask : w &&& 0x8000#16 ≠ 0x0000#16 := by
    intro hzero
    have := congrArg BitVec.msb hzero
    rw [BitVec.msb_and, hmsb] at this
    exact absurd this (by decide)
  simp [matchingRows, wireRows, hmask]

/-- Settles O4: a word and its canonical form match the same rows. -/
theorem everyWordMatchesItsOwnRowOnly : Obligations.EveryWordMatchesItsOwnRowOnly := by
  unfold Obligations.EveryWordMatchesItsOwnRowOnly
  refine ⟨matchingRows_host, matchingRows_top, fun w => ?_⟩
  split
  next h => exact matchingRows_wire_ok h
  next h => exact matchingRows_wire_error h

/-! ### The assembler (R69) -/

/-- A `WRITEV` word is its opcode's base plus the operand (R62, R69). -/
theorem hostWord_writev_eq_add (imm : BitVec 16) : hostWord 0x2#4 imm = 0x20000#20 + imm.setWidth 20 := by
  apply BitVec.eq_of_toNat_eq
  have himm := imm.isLt
  simp only [hostWord, BitVec.toNat_append, BitVec.toNat_add, BitVec.toNat_setWidth, BitVec.toNat_ofNat]
  rw [← Nat.shiftLeft_add_eq_or_of_lt himm]
  omega

/-- Settles O8: both forms of `WRITEV` make the base plus the operand, and the limit of `WRITEV12` is the
assembler's. -/
theorem assemblerWords : Obligations.AssemblerWords := by
  unfold Obligations.AssemblerWords
  refine ⟨rfl, rfl, fun imm => ?_, fun _ => rfl, fun n hn => ?_, fun n hn => ?_⟩
  · rw [assemble, hostWord_writev_eq_add]
  · rw [assemble, if_pos hn, hostWord_writev_eq_add, BitVec.setWidth_ofNat_of_le_of_lt (by decide) (by omega)]
  · rw [assemble, if_neg (by omega)]

end Sys2Proof

/-! What the encodings mean to the machine: words that name no operation (R65), the host that presents them (R71), and
the frames the observer sees (R60, R136). -/

namespace Sys2Proof.Machine

/-! ### Words that name no operation (R65, R111, R112) -/

/-- In `IDLE` a word whose opcode is neither that of `INIT` nor that of `WRITEV` changes nothing (R121). -/
theorem Edge.quiet_of_opField {inp : Inputs} {s : State} (hr : inp.rst = false) (hp : s.ph = .idle)
    (h1 : opField inp.cmd ≠ 0x1#4) (h2 : opField inp.cmd ≠ 0x2#4) : Edge inp s s :=
  .quiet hr hp fun _ =>
    ⟨fun h => h1 (opField_of_decodeHost_init h), fun _ h => h2 (opField_of_decodeHost_writev h)⟩

/-- Settles O29: `NOP` and the reserved opcodes are what the opcodes of `INIT` and `WRITEV` leave over. -/
theorem nopAndReservedChangeNothing : Obligations.NopAndReservedChangeNothing := by
  unfold Obligations.NopAndReservedChangeNothing
  refine ⟨fun s => ⟨rfl, rfl, fun _ => rfl, fun _ => rfl⟩, fun inp s hr hp _ hop => ?_, rfl⟩
  have hrest : ∀ op : BitVec 4, op = 0x0#4 ∨ 0x3#4 ≤ op → op ≠ 0x1#4 ∧ op ≠ 0x2#4 := by decide
  obtain ⟨h1, h2⟩ := hrest (opField inp.cmd) hop
  refine ⟨by simp [State.outputs, State.ready, hp], edge_blockTick (.quiet_of_opField hr hp h1 h2), ?_⟩
  exact edge_blockTick (.quiet hr hp nofun)

/-! ### The eager host (R71) -/

/-- No edge of the phase graph moves the host agent (R9). -/
theorem Edge.host_eq {inp : Inputs} {s t : State} (h : Edge inp s t) : t.host = s.host := by
  cases h <;> simp

/-- A step moves the host agent on by one cycle, whatever the block does (R71, R185). -/
theorem step_host_eq {s t : State} (h : step s = .next t) : t.host = s.host.advance s.ready := by
  obtain ⟨-, u, hedge, rfl⟩ := step_edge h
  rw [observe_host, hedge.host_eq, State.advanceHost_host]

/-- The inputs of a cycle in which nothing is scripted and a command is left (R71). -/
theorem State.inputs_of_program {s : State} {w : HostWord} {ws : List HostWord} (hs : s.host.script = [])
    (hp : s.host.program = w :: ws) :
    s.inputs = { rst := false, cmdValid := s.ready, cmd := w, miso := Config.freeMiso s.draw } := by
  simp only [State.inputs, State.eagerInputs, hs, hp]

/-- With nothing scripted the host agent drops its next command exactly when `ready = 1` (R71). -/
theorem HostAgent.advance_of_program {h : HostAgent} {w : HostWord} {ws : List HostWord} (hs : h.script = [])
    (hp : h.program = w :: ws) (ready : Level) :
    h.advance ready = { script := [], program := if ready then ws else w :: ws } := by
  obtain ⟨script, program⟩ := h
  subst hs hp
  cases ready <;> rfl

/-- Settles O58: the presented command is the list's head, and the step drops it exactly when it was accepted. -/
theorem eagerHostPresentsInOrder : Obligations.EagerHostPresentsInOrder := by
  unfold Obligations.EagerHostPresentsInOrder
  intro w ws s t hs hp
  rw [State.inputs_of_program hs hp]
  refine ⟨rfl, Iff.rfl, rfl, fun h => ?_⟩
  rw [step_host_eq h, HostAgent.advance_of_program hs hp]
  exact ⟨rfl, rfl⟩

/-! ### The frames the observer sees (R60, R61, R136) -/

/-- No edge of the phase graph shows the observer anything: only `observe` does. -/
theorem Edge.dac_eq {inp : Inputs} {s t : State} (h : Edge inp s t) : t.dac = s.dac := by
  cases h <;> simp

/-- Only the end of a Chip-Select-low interval can add an entry or mark a partial frame (R136). -/
theorem Dac.see_of_no_end (d : Dac) {a b : State} (h : (!a.csn && b.csn) = false) :
    (d.see a b).frames = d.frames ∧ (d.see a b).tainted = d.tainted := by
  simp only [Dac.see, h, Bool.false_eq_true, if_false, Dac.sample, Dac.latch]
  split_ifs <;> exact ⟨rfl, rfl⟩

/-- Where Chip-Select rises over a low clock, the interval's entry is that of the bits sampled before (R136). -/
theorem Dac.see_of_end (d : Dac) {a b : State} (hc : a.csn = false) (hb : b.csn = true) (hk : b.sck = false) :
    (d.see a b).frames = d.endInterval.frames ∧ (d.see a b).tainted = d.endInterval.tainted := by
  simp only [Dac.see, hc, hb, hk, Bool.not_false, Bool.true_and, Bool.and_false, Bool.false_eq_true, if_false, if_true,
    Dac.latch]
  split_ifs <;> exact ⟨rfl, rfl⟩

/-- An interval that ends adds one entry: a word only if it is that of the sixteen bits sampled, and `undefined` only
with a partial frame seen (R42, R136). -/
theorem Dac.endInterval_entry (d : Dac) :
    ∃ v, d.endInterval.frames = d.frames ++ [v] ∧
      (∀ w, v = .word w → d.bits.length = 16 ∧ w = wireWord d.bits) ∧
      (d.endInterval.tainted = false → d.tainted = false ∧ v ≠ .undefined) := by
  by_cases h16 : d.bits.length = 16
  · cases htaint : d.tainted with
    | true => exact ⟨.undefined, by simp [Dac.endInterval, Dac.take, h16, htaint]⟩
    | false => exact ⟨.word (wireWord d.bits), by simp [Dac.endInterval, Dac.take, h16, htaint]⟩
  · exact ⟨.undefined, by simp [Dac.endInterval, Dac.takePartial, h16]⟩

/-- What every frame seen is does not depend on the registers. -/
theorem State.FramesInv.congr {s t : State} (hs : s.FramesInv) (hc : t.cfg = s.cfg)
    (hf : t.dac.frames = s.dac.frames) (ht : t.dac.tainted = s.dac.tainted) : t.FramesInv where
  nibble w hw := by
    rw [hf] at hw
    rw [hc]
    exact hs.nibble w hw
  whole hu := by
    rw [ht] at hu
    rw [hf]
    exact hs.whole hu

/-- One more entry: it must begin with the nibble if it is a word, and may be `undefined` only with a partial frame
seen. -/
theorem State.FramesInv.append {s t : State} {v : Seen} (hs : s.FramesInv) (hc : t.cfg = s.cfg)
    (hf : t.dac.frames = s.dac.frames ++ [v]) (hv : ∀ w, v = .word w → w.extractLsb' 12 4 = s.cfg.ctrl)
    (ht : t.dac.tainted = false → s.dac.tainted = false ∧ v ≠ .undefined) : t.FramesInv where
  nibble w hw := by
    rw [hf, List.mem_append, List.mem_singleton] at hw
    rw [hc]
    rcases hw with hw | hw
    · exact hs.nibble w hw
    · exact hv w hw.symm
  whole hu := by
    obtain ⟨hclean, hdef⟩ := ht hu
    rw [hf, List.mem_append, List.mem_singleton]
    rintro (hmem | hmem)
    · exact hs.whole hclean hmem
    · exact hdef hmem.symm

/-- Sixteen bits shown with Chip-Select low are the whole frame of the call, which begins with the nibble (R41, R60). -/
theorem State.WireInv.nibble_of_sixteen {s : State} (hw : s.WireInv) (hp : s.ph ≠ .idle)
    (h16 : s.dac.bits.length = 16) : (wireWord s.dac.bits).extractLsb' 12 4 = s.cfg.ctrl := by
  have hall : s.dac.bits = wireBits s.fr := by
    rw [hw.shown] at h16 ⊢
    exact List.take_of_length_le (by simpa using h16)
  rw [hall, wireWord_wireBits]
  exact hw.nibble hp

/-- While Chip-Select is high the clock is low (R26). -/
theorem State.PhaseInv.sck_of_csn {s : State} (h : s.PhaseInv) (hc : s.csn = true) : s.sck = false := by
  have hp : s.ph ≠ .shHigh := fun hp => by simp [h.select, hp, Phase.selected] at hc
  simp [h.clock, hp]

/-- While Chip-Select is low the block is not in `IDLE` (R26). -/
theorem State.PhaseInv.busy_of_csn {s : State} (h : s.PhaseInv) (hc : s.csn = false) : s.ph ≠ .idle :=
  fun hp => by simp [h.select, hp, Phase.selected] at hc

/-- Settles O41: a tick adds an entry only where Chip-Select rises, in a phase outside `IDLE` and over a low clock; the
entry is then the whole frame of the call or is marked as a partial one. -/
theorem everyFrameSeenCarriesTheNibble : Obligations.EveryFrameSeenCarriesTheNibble := by
  unfold Obligations.EveryFrameSeenCarriesTheNibble
  intro inp s t hi hw hs h
  have hcfg := tick_cfg_eq h
  obtain ⟨-, u, hedge, rfl⟩ := tick_edge h
  have hdac := hedge.dac_eq
  cases hen : s.en with
  | false =>
    rw [observe_disabled hen] at hcfg ⊢
    exact hs.congr hcfg (by rw [hdac]) (by rw [hdac])
  | true =>
    have hsee : (observe s u).dac = s.dac.see s u := by simp [observe, hen, hdac]
    cases hend : !s.csn && u.csn with
    | false =>
      obtain ⟨hframes, htaint⟩ := s.dac.see_of_no_end hend
      exact hs.congr hcfg (by rw [hsee, hframes]) (by rw [hsee, htaint])
    | true =>
      obtain ⟨hlow, hhigh⟩ : s.csn = false ∧ u.csn = true := by simpa using hend
      have hsck := (hedge.keeps_phaseInv hi.phaseInv).sck_of_csn hhigh
      obtain ⟨hframes, htaint⟩ := s.dac.see_of_end hlow hhigh hsck
      obtain ⟨v, hentry, hword, hclean⟩ := s.dac.endInterval_entry
      refine hs.append hcfg (by rw [hsee, hframes, hentry]) (fun w hv => ?_) (by rw [hsee, htaint]; exact hclean)
      obtain ⟨h16, rfl⟩ := hword w hv
      exact hw.nibble_of_sixteen (hi.phaseInv.busy_of_csn hlow) h16

end Sys2Proof.Machine

/-! The Bus Transport (40_transport.md): a whole exchange of a byte (R81, R82, R88), the micro-commands of R89 with what
the Sequencer writes around them, and which cycles write the Transport's registers (R90). -/

namespace Sys2Proof.Machine

/-! ### The exchange of a byte (R81, R82, R88) -/

/-- The run over `ins` from `s` clocks out `bits`, one each two half periods, and goes on from `t`: the levels sampled
meanwhile stand in the shift register below what it held, and the observer was shown the bits if Chip-Select was low
(R82, R125, R126, R136). -/
structure Exchanges (ins : List Inputs) (s : State) (bits : List Level) (t : State) : Prop where
  ticks_eq : ticks ins s = ticks (ins.drop (2 * s.cfg.tHalf * bits.length)) t
  cfg : t.cfg = s.cfg
  fr : t.fr = s.fr
  csn : t.csn = s.csn
  len : t.len = s.len
  sampled : ∀ j, j < bits.length →
    (ins[2 * s.cfg.tHalf * j + s.cfg.tHalf - 1]?).map Inputs.miso = some (t.sr.getLsbD (bits.length - 1 - j))
  shifted : ∀ j, j + bits.length < 8 → t.sr.getLsbD (j + bits.length) = s.sr.getLsbD j
  shown : t.dac.bits = s.dac.bits ++ if s.csn then [] else bits

theorem Exchanges.nil (ins : List Inputs) (s : State) : Exchanges ins s [] s where
  ticks_eq := rfl
  cfg := rfl
  fr := rfl
  csn := rfl
  len := rfl
  sampled := nofun
  shifted _ _ := rfl
  shown := by simp

/-- Bits clocked out one after the other: the later shifts move what the first pulse sampled up (R82). -/
theorem Exchanges.cons {ins : List Inputs} {s u t : State} {bit : Level} {bits : List Level}
    (h : Exchanges ins s [bit] u) (h' : Exchanges (ins.drop (2 * s.cfg.tHalf)) u bits t) (h8 : bits.length < 8) :
    Exchanges ins s (bit :: bits) t where
  ticks_eq := by
    rw [h.ticks_eq, List.length_singleton, Nat.mul_one, h'.ticks_eq, h.cfg, List.drop_drop, List.length_cons,
      Nat.mul_add_one, Nat.add_comm]
  cfg := h'.cfg.trans h.cfg
  fr := h'.fr.trans h.fr
  csn := h'.csn.trans h.csn
  len := h'.len.trans h.len
  sampled j hj := by
    cases j with
    | zero =>
      have hmoved := h'.shifted 0 (by omega)
      exact (h.sampled 0 Nat.one_pos).trans (congrArg some (by simpa using hmoved.symm))
    | succ j =>
      have hlater := h'.sampled j (by simpa using hj)
      rw [h.cfg, List.getElem?_drop] at hlater
      rw [Nat.mul_add_one, List.length_cons]
      convert hlater using 3 <;> omega
  shifted j hj := by
    rw [List.length_cons] at hj ⊢
    have hfirst := h.shifted j (by simp; omega)
    have hmoved := h'.shifted (j + 1) (by omega)
    rw [← hfirst, List.length_singleton, ← hmoved]
    congr 1
    omega
  shown := by
    rw [h'.shown, h.shown, h.csn]
    cases s.csn <;> simp

/-- An exchange of the byte `cur` on an enabled Transport has `n` bits still to be clocked; with none left it is
complete (R81, R126). -/
structure State.Exchanging (s : State) (cur : Byte) (n : Nat) : Prop where
  en : s.en = true
  sck : s.sck = false
  bitcnt : s.bitcnt.toNat = n
  due : n ≠ 0 → s.PulseDue cur n
  complete : n = 0 → s.ph = .xdone ∧ s.tc = true ∧ s.mosi = cur.getLsbD 0

/-- One clock pulse of an exchange, whatever Chip-Select and Latch-Enable are (R82, R125, R126). -/
theorem exchanges_pulse {cur : Byte} {n : Nat} {s : State} {ins : List Inputs} (hw : s.cfg.wf = true)
    (hs : s.Exchanging cur (n + 1)) (h8 : n + 1 ≤ 8) (hn : NoReset ins) (hl : 2 * s.cfg.tHalf ≤ ins.length) :
    ∃ u, Exchanges ins s [cur.getLsbD n] u ∧ u.Exchanging cur n := by
  obtain ⟨hph, hdly, hbit, hmosi, hunsent⟩ := hs.due (by omega)
  obtain ⟨u, i, -, hticks, hcfg, hfr, -, hbit', hlast, hnext, hi, hsr, hcsn, hlen, hen, hsck, hdac⟩ :=
    bit_run s cur (n + 1) ins hw hs.en hs.sck hbit (by omega) h8 hunsent hph hdly hn hl
  refine ⟨u, ⟨by simpa using hticks, hcfg, hfr, hcsn, hlen, fun j hj => ?_, fun j hj => ?_, ?_⟩,
    ⟨hen.trans hs.en, hsck, hbit', fun h0 => ?_, fun h0 => ?_⟩⟩
  · obtain rfl : j = 0 := by simpa using hj
    simp [hi, hsr, -BitVec.getLsbD_eq_getElem, shiftIn_getLsbD]
  · have hj : j + 1 < 8 := hj
    simp [hsr, -BitVec.getLsbD_eq_getElem, shiftIn_getLsbD, hj]
  · simp [hdac, hmosi]
  · obtain ⟨hp, hd, hm, hu⟩ := hnext (by omega)
    exact ⟨hp, hd.trans (by rw [hcfg]), hbit', hm, hu⟩
  · obtain ⟨hp, htc, hm, -⟩ := hlast (by omega)
    exact ⟨hp, htc, by rw [hm, hmosi, h0]⟩

/-- An exchange runs to its end, two half periods for each bit left (R81, R82, R183). -/
theorem exchanges_complete {cur : Byte} :
    ∀ (n : Nat) {s : State} {ins : List Inputs}, s.cfg.wf = true → s.Exchanging cur n → n ≤ 8 → NoReset ins →
      2 * s.cfg.tHalf * n ≤ ins.length → ∃ t, Exchanges ins s (bitsBelow cur n) t ∧ t.Exchanging cur 0 := by
  intro n
  induction n with
  | zero =>
    intro s ins _ hs _ _ _
    exact ⟨s, .nil ins s, hs⟩
  | succ n ih =>
    intro s ins hw hs h8 hn hl
    rw [Nat.mul_add_one] at hl
    obtain ⟨u, hpulse, hu⟩ := exchanges_pulse hw hs h8 hn (by omega)
    obtain ⟨t, hrest, ht⟩ := ih (hpulse.cfg ▸ hw) hu (by omega) (hn.drop (2 * s.cfg.tHalf))
      (by rw [hpulse.cfg, List.length_drop]; omega)
    exact ⟨t, hpulse.cons hrest (by rw [bitsBelow_length]; omega), ht⟩

/-- `T_XCHG` on an enabled Transport starts an exchange with eight bits to be clocked (R124). -/
theorem exec_tXchg_enabled {s : State} (he : s.en = true) (b : Byte) :
    exec (.tXchg b) s =
      .next (((s.loadByte b).clearTc.setByteIdx (exchangeIndex s.ph)).enter .shLow s.cfg.tHalf) :=
  congrArg Host.Outcome.next (State.startXchg_enabled he b _)

/-- Settles O51: the exchange starts with all eight bits of the byte to be clocked, and eight clock pulses of two half
periods each are the whole run. -/
theorem exchangeByteContract : Obligations.ExchangeByteContract := by
  unfold Obligations.ExchangeByteContract
  intro b s u ins hw hen hsck hu hn hl
  rw [exec_tXchg_enabled hen] at hu
  cases hu
  obtain ⟨t, hrun, hdone⟩ := exchanges_complete 8 (cur := b)
    (s := ((s.loadByte b).clearTc.setByteIdx (exchangeIndex s.ph)).enter .shLow s.cfg.tHalf) (ins := ins) hw
    ⟨hen, hsck, rfl, fun _ => State.pulseDue_of_load b _ hw, nofun⟩ le_rfl hn (by simp; omega)
  obtain ⟨hph, htc, hmosi⟩ := hdone.complete rfl
  have hend : ins.drop (2 * s.cfg.tHalf * 8) = [] := List.drop_of_length_le (by omega)
  refine ⟨t, ?_, hph, htc, BitVec.eq_of_toNat_eq hdone.bitcnt, hdone.sck, hmosi, hrun.csn, hrun.len, hrun.fr, hdone.en,
    fun j hj => ?_, ?_⟩
  · rw [hrun.ticks_eq, bitsBelow_length, State.enter_cfg]
    exact congrArg (ticks · t) hend
  · simpa using hrun.sampled j (by simpa using hj)
  · rw [hrun.shown, bitsBelow_eq_map]
    rfl

/-! ### The micro-commands of R89 -/

/-- The six rows of R89: when a cycle issues a micro-command, which one, and the Sequencer's own writes around it (R121
to R128). -/
inductive Issues (inp : Inputs) (s : State) : Instr → (State → State) → Prop where
  /-- `INIT` accepted (R110, R121). -/
  | init (hr : inp.rst = false) (hp : s.ph = .idle) (hv : inp.cmdValid = true) (hi : decodeHost inp.cmd = .init) :
      Issues inp s .tInit id
  /-- `WRITEV` accepted with Latch-Enable deasserted (R121). -/
  | write (hr : inp.rst = false) (hp : s.ph = .idle) (hv : inp.cmdValid = true) (code : Code12)
      (hi : decodeHost inp.cmd = .writev code) (hl : s.len = true) :
      Issues inp s .tSel fun t => (t.loadFrame (s.cfg.ctrl ++ code)).enter .csSetup s.cfg.tCss
  /-- `LE_NORM` exit (R122). -/
  | norm (hr : inp.rst = false) (hp : s.ph = .leNorm) (hd : s.dly = 0#_) :
      Issues inp s .tSel fun t => t.enter .csSetup s.cfg.tCss
  /-- `CS_SETUP` exit (R123). -/
  | high (hr : inp.rst = false) (hp : s.ph = .csSetup) (hd : s.dly = 0#_) :
      Issues inp s (.tXchg (highByte s.fr)) id
  /-- `XDONE` after the high byte (R127). -/
  | low (hr : inp.rst = false) (hp : s.ph = .xdone) (hb : s.byteidx = false) :
      Issues inp s (.tXchg (lowByte s.fr)) id
  /-- `CS_HOLD` exit (R128). -/
  | deselect (hr : inp.rst = false) (hp : s.ph = .csHold) (hd : s.dly = 0#_) :
      Issues inp s .tDesel fun t => t.enter .csLeGap s.cfg.tCsle

/-- A row of R89 is what the cycle's micro-command signal says. -/
theorem Issues.transportSignal_eq {inp : Inputs} {s : State} {i : Instr} {around : State → State}
    (h : Issues inp s i around) : transportSignal inp s = some i := by
  cases h with
  | init hr hp hv hi => simp [transportSignal, hostSignal, hr, hp, hv, hi]
  | write hr hp hv code hi hl => simp [transportSignal, hostSignal, hr, hp, hv, hi, hl]
  | norm hr hp hd | high hr hp hd | deselect hr hp hd => simp [transportSignal, hr, hp, hd]
  | low hr hp hb => simp [transportSignal, hr, hp, hb]

theorem onNext_id (o : Host.Outcome State Fault Refusal) : onNext o id = o := by
  cases o <;> rfl

/-- The tick of a row of R89 executes the T-op, and the Sequencer's own writes follow (R121 to R128). -/
theorem Issues.blockTick_eq {inp : Inputs} {s : State} {i : Instr} {around : State → State}
    (h : Issues inp s i around) : blockTick inp s = onNext (exec i s) around := by
  cases h with
  | init hr hp hv hi => exact edge_blockTick (.init hr hp hv hi)
  | write hr hp hv code hi hl =>
    rw [edge_blockTick (.write hr hp hv code hi hl), composeFrame_eq]
    rfl
  | norm hr hp hd => exact edge_blockTick (.normDone hr hp hd)
  | high hr hp hd => simp [blockTick, csSetupTick, dwell_exit hd, onNext_id, hr, hp]
  | low hr hp hb => simp [blockTick, xdoneTick, onNext_id, hr, hp, hb]
  | deselect hr hp hd => exact edge_blockTick (.deselect hr hp hd)

/-- The T-op an accepted host command issues (R89, first two rows). -/
theorem hostSignal_eq_some {i j : Instr} {s : State} (h : hostSignal i s = some j) :
    (i = .init ∧ j = .tInit) ∨ ∃ c, i = .writev c ∧ s.len = true ∧ j = .tSel := by
  cases i with
  | init => exact .inl ⟨rfl, (Option.some.inj h).symm⟩
  | writev c =>
    obtain ⟨hl, hj⟩ := Option.ite_none_right_eq_some.mp h
    exact .inr ⟨c, rfl, hl, (Option.some.inj hj).symm⟩
  | _ => simp [hostSignal] at h

/-- R89 has no other row: a micro-command is issued by one of the six. -/
theorem exists_issues {inp : Inputs} {s : State} {i : Instr} (h : transportSignal inp s = some i) :
    ∃ around, Issues inp s i around := by
  cases hr : inp.rst with
  | true => simp [transportSignal, hr] at h
  | false =>
    simp only [transportSignal, hr, Bool.false_eq_true, if_false] at h
    cases hp : s.ph <;> simp only [hp, Option.ite_none_right_eq_some, Option.ite_none_left_eq_some,
      Option.some.injEq, reduceCtorEq] at h
    case idle =>
      obtain ⟨hv, h⟩ := h
      obtain ⟨hi, rfl⟩ | ⟨c, hi, hl, rfl⟩ := hostSignal_eq_some h
      · exact ⟨_, .init hr hp hv hi⟩
      · exact ⟨_, .write hr hp hv c hi hl⟩
    case leNorm => obtain ⟨hd, rfl⟩ := h; exact ⟨_, .norm hr hp hd⟩
    case csSetup => obtain ⟨hd, rfl⟩ := h; exact ⟨_, .high hr hp hd⟩
    case xdone => obtain ⟨hb, rfl⟩ := h; exact ⟨_, .low hr hp (by simpa using hb)⟩
    case csHold => obtain ⟨hd, rfl⟩ := h; exact ⟨_, .deselect hr hp hd⟩

/-- The Sequencer's own writes are those of frame, phase and dwell: none is a register of the Transport (R90). -/
theorem Issues.around_transport {inp : Inputs} {s : State} {i : Instr} {around : State → State}
    (h : Issues inp s i around) (t : State) : (around t).transport = t.transport := by
  cases h <;> rfl

/-- Settles O12: each of the six conditions is a row of R89. -/
theorem stepRunsTheIssuedMicroCommand : Obligations.StepRunsTheIssuedMicroCommand := by
  unfold Obligations.StepRunsTheIssuedMicroCommand
  intro inp s hr
  have row {i : Instr} {around : State → State} (h : Issues inp s i around) :
      transportSignal inp s = some i ∧ blockTick inp s = onNext (exec i s) around :=
    ⟨h.transportSignal_eq, h.blockTick_eq⟩
  refine ⟨fun hp hv hi => row (.init hr hp hv hi), fun c hp hv hi hl => row (.write hr hp hv c hi hl),
    fun hp hd => row (.norm hr hp hd), fun hp hd => ?_, fun hp hb => ?_, fun hp hd => row (.deselect hr hp hd)⟩
  · simpa only [onNext_id] using row (.high hr hp hd)
  · simpa only [onNext_id] using row (.low hr hp hb)

/-! ### Which cycles write the Transport's registers (R90) -/

/-- An edge without a micro-command, a bit-level phase or reset writes no register of the Transport (R90). -/
theorem Edge.transport_eq {inp : Inputs} {s t : State} (h : Edge inp s t) (hi : transportSignal inp s = none)
    (hr : inp.rst = false) (hl : s.ph ≠ .shLow) (hh : s.ph ≠ .shHigh) : t.transport = s.transport := by
  have silent {i : Instr} {around : State → State} (h : Issues inp s i around) : False := by
    simp [h.transportSignal_eq] at hi
  cases h with
  | reset hr' => simp [hr] at hr'
  | stay | quiet | writeNorm | hold | latchDown | latchUp | hungStay => rfl
  | rise _ hp => exact absurd hp hl
  | fall _ hp | lastFall _ hp => exact absurd hp hh
  | init hr hp hv hi => exact (silent (.init hr hp hv hi)).elim
  | write hr hp hv code hi hl => exact (silent (.write hr hp hv code hi hl)).elim
  | normDone hr hp hd => exact (silent (.norm hr hp hd)).elim
  | startHigh hr hp hd | hangHigh hr hp hd => exact (silent (.high hr hp hd)).elim
  | startLow hr hp hb | hangLow hr hp hb => exact (silent (.low hr hp hb)).elim
  | deselect hr hp hd => exact (silent (.deselect hr hp hd)).elim

/-- Settles O17: around an issued T-op the Sequencer writes registers of its own, and the other edges outside the two
bit-level phases and reset write none of the Transport's. -/
theorem onlyMicroCommandsWriteTheTransport : Obligations.OnlyMicroCommandsWriteTheTransport := by
  unfold Obligations.OnlyMicroCommandsWriteTheTransport
  intro inp s t h
  refine ⟨fun i hi => ?_, (blockTick_edge h).transport_eq⟩
  obtain ⟨around, hrow⟩ := exists_issues hi
  rw [hrow.blockTick_eq] at h
  obtain ⟨u, hu, rfl⟩ := onNext_eq_next.mp h
  exact ⟨u, hu, hrow.around_transport u⟩

/-! ### The operations without a clock pulse (R80, R84, R85) -/

/-- Enabling the bus a second time changes nothing (R80). -/
@[simp] theorem State.initBus_initBus (s : State) : s.initBus.initBus = s.initBus := rfl

/-- Settles O30: `INIT` and `T_INIT` are the same register operation, and it is idempotent. -/
theorem initializeEnablesTheBus : Obligations.InitializeEnablesTheBus := by
  unfold Obligations.InitializeEnablesTheBus
  intro s
  refine ⟨rfl, rfl, fun t h => ?_⟩
  cases h
  exact congrArg Host.Outcome.next s.initBus_initBus

/-- Settles O31: `T_SEL` and `T_DESEL` read no register, so they do not ask whether the Transport is enabled. -/
theorem selectOperationsWriteChipSelect : Obligations.SelectOperationsWriteChipSelect := by
  unfold Obligations.SelectOperationsWriteChipSelect
  exact fun s => ⟨rfl, rfl⟩

end Sys2Proof.Machine

/-! The encoder and the Sequencer (41_encoder_sequencer.md): the masked code and the frame it makes (R100 to R103), the
tick that accepts a call (R104, R105), what a call shows at the pins and in which order (R113, R114), and what it leaves
behind when it returns (R109). -/

namespace Sys2Proof.Machine

/-! ### The encoder (R100 to R103) -/

/-- Settles O9: both words decode to the masked code's `WRITEV`, and a tick reads the word through the decoder alone. -/
theorem outOfRangeCodesAreMasked : Obligations.OutOfRangeCodesAreMasked := by
  unfold Obligations.OutOfRangeCodesAreMasked
  refine ⟨fun arg => ⟨by simp [maskCode], ?_⟩, by decide, by decide, fun arg inp s => ?_⟩
  · rw [← zero_append_maskCode, BitVec.setWidth_append_eq_right]
  · have hwritev (a : BitVec 16) : decodeHost (0x2#4 ++ a) = .writev (maskCode a) := decodeHost_writev a
    have hcode : maskCode (arg &&& 0x0FFF#16) = maskCode arg := by rw [← zero_append_maskCode, maskCode_append]
    have hdecode : decodeHost (0x2#4 ++ arg) = decodeHost (0x2#4 ++ (arg &&& 0x0FFF#16)) := by
      rw [hwritev, hwritev, hcode]
    simp only [tick, blockTick, idleTick, shLowTick, hdecode]

/-- Fields joined, as arithmetic. -/
theorem append_toNat {n m : Nat} (x : BitVec n) (y : BitVec m) : (x ++ y).toNat = x.toNat * 2 ^ m + y.toNat := by
  rw [BitVec.toNat_append, ← Nat.shiftLeft_add_eq_or_of_lt y.isLt, Nat.shiftLeft_eq]

/-- The high byte as arithmetic (R101). -/
theorem composeHigh_toNat (ctrl : Nibble) (code : Code12) :
    (composeHigh ctrl code).toNat = ctrl.toNat * 16 + code.toNat / 256 := by
  have hcode := code.isLt
  rw [composeHigh, append_toNat, BitVec.extractLsb'_toNat, Nat.shiftRight_eq_div_pow]
  omega

/-- Settles O10: the frame is the concatenation of its two bytes, and of the nibble and the code. -/
theorem frameLayout : Obligations.FrameLayout := by
  unfold Obligations.FrameLayout
  intro ctrl code
  refine ⟨composeHigh_toNat ctrl code, by simp [composeLow], ?_, BitVec.extractLsb'_append_eq_left,
    BitVec.extractLsb'_append_eq_right, fun j hj => ?_, fun j hj => ?_, fun k h1 h16 => ?_⟩
  · exact (congrArg _ (composeFrame_eq ctrl code)).trans (append_toNat ctrl code)
  · rw [composeFrame_eq, BitVec.getLsbD_append, if_pos hj]
  · rw [composeFrame_eq, BitVec.getLsbD_append, if_neg (by omega), Nat.add_sub_cancel_left]
  · rw [List.getElem?_eq_getElem (by simp; omega), wireBits_getElem, show 15 - (k - 1) = 16 - k by omega]

/-! ### The tick that accepts a call (R103 to R105, R121) -/

/-- `WRITEV` with Latch-Enable deasserted (R105, R121). -/
theorem exec_writev {s : State} (hl : s.len = true) (code : Code12) :
    exec (.writev code) s =
      .next (((s.loadFrame (s.cfg.ctrl ++ code)).assertSelect).enter .csSetup s.cfg.tCss) := by
  rw [← composeFrame_eq]
  exact if_pos hl

/-- `WRITEV` with Latch-Enable found asserted (R104, R121). -/
theorem exec_writev_norm {s : State} (hl : s.len = false) (code : Code12) :
    exec (.writev code) s =
      .next (((s.loadFrame (s.cfg.ctrl ++ code)).deassertLatch).enter .leNorm s.cfg.tLeh) := by
  rw [← composeFrame_eq]
  exact if_neg (by simp [hl])

/-- Settles O32: the two cases of the check of Latch-Enable. -/
theorem writeVoltageAcceptTick : Obligations.WriteVoltageAcceptTick := by
  unfold Obligations.WriteVoltageAcceptTick
  exact fun code s => ⟨fun hl => exec_writev hl code, fun hl => exec_writev_norm hl code⟩

/-- A call stands at the start of `CS_SETUP` (R105, R123). -/
structure State.CallStarted (s : State) (c : Config) (f : Frame) : Prop where
  sending : s.Sending c f
  ph : s.ph = .csSetup
  dly : s.dly.toNat = c.tCss - 1

/-- An accepted `WRITEV` that finds Latch-Enable deasserted starts its call at once, and shows nothing new on the data
line or to the observer (R105, R121). -/
theorem callStarted_of_exec {c : Code12} {s u : State} (hw : s.cfg.wf = true) (hen : s.en = true)
    (hlen : s.len = true) (hsck : s.sck = false) (hu : exec (.writev c) s = .next u) :
    u.CallStarted s.cfg (s.cfg.ctrl ++ c) ∧ u.mosi = s.mosi ∧ u.dac = s.dac := by
  obtain ⟨-, okCss, -⟩ := Config.wf_dwellOk hw
  rw [exec_writev hlen] at hu
  cases hu
  exact ⟨⟨⟨rfl, rfl, hen, rfl, hlen, hsck⟩, rfl, Config.dwellOk_load okCss⟩, rfl, rfl⟩

/-! ### What a call shows at the pins (R113, R114, R134) -/

/-- The waveform of an accepted call (R134). -/
theorem trace_of_exec {c : Code12} {s u : State} {ins : List Inputs} (hw : s.cfg.wf = true) (hen : s.en = true)
    (hlen : s.len = true) (hsck : s.sck = false) (hu : exec (.writev c) s = .next u) (hn : NoReset ins)
    (hl : ins.length = busyCycles s.cfg) :
    (trace ins u).map State.waveRow = callRows s.cfg (s.cfg.ctrl ++ c) s.mosi := by
  obtain ⟨⟨hsending, hp, hd⟩, hmosi, -⟩ := callStarted_of_exec hw hen hlen hsck hu
  rw [trace_call hw hsending hp hd hn hl, hmosi]

/-- The level of `mosi` before a call is shown in its `CS_SETUP` only (R113, R134). -/
theorem callRows_before (c : Config) (f : Frame) (before before' : Level) :
    (callRows c f before).drop c.tCss = (callRows c f before').drop c.tCss ∧
    (callRows c f before).map (fun r => { r with mosi := false }) =
      (callRows c f before').map (fun r => { r with mosi := false }) := by
  simp [callRows]

/-- Settles O56: both calls show the waveform of R134 for the same parameters and frame. -/
theorem callsAreIndependent : Obligations.CallsAreIndependent := by
  unfold Obligations.CallsAreIndependent
  intro c s s' u u' ins ins' hcfg hw hp hp' hi hi' hen hen' hu hu' hn hn' hl hl'
  obtain ⟨hsck, -, hlen, -, -⟩ := hi.idle_rest hp
  obtain ⟨hsck', -, hlen', -, -⟩ := hi'.idle_rest hp'
  have hwave := trace_of_exec hw hen hlen hsck hu hn hl
  have hwave' := trace_of_exec (hcfg ▸ hw) hen' hlen' hsck' hu' hn' (hcfg ▸ hl')
  rw [← hcfg] at hwave'
  obtain ⟨hafter, hmasked⟩ := callRows_before s.cfg (s.cfg.ctrl ++ c) s.mosi s'.mosi
  rw [← hwave, ← hwave', List.map_map, List.map_map] at hmasked
  rw [← hwave, ← hwave'] at hafter
  exact ⟨hafter, hmasked⟩

/-! ### The events of a call, without timing (R114) -/

/-- Two lists of levels show the same events wherever they stand in a run. -/
def SameEvents (l l' : List Lines) : Prop := ∀ l₁ l₂, changes (l₁ ++ l ++ l₂) = changes (l₁ ++ l' ++ l₂)

theorem SameEvents.refl (l : List Lines) : SameEvents l l := fun _ _ => rfl

theorem SameEvents.append {a a' b b' : List Lines} (ha : SameEvents a a') (hb : SameEvents b b') :
    SameEvents (a ++ b) (a' ++ b') := fun l₁ l₂ => by
  have h := (hb (l₁ ++ a) l₂).trans (by simpa using ha l₁ (b' ++ l₂))
  simpa using h

/-- A level held for one cycle more is no event. -/
theorem destutter'_repeat (a b : Lines) (l₁ l₂ : List Lines) :
    (l₁ ++ b :: b :: l₂).destutter' (· ≠ ·) a = (l₁ ++ b :: l₂).destutter' (· ≠ ·) a := by
  induction l₁ generalizing a with
  | nil => by_cases h : a = b <;> simp [h]
  | cons x l₁ ih => simp only [List.cons_append, List.destutter'_cons, ih]

theorem sameEvents_repeat (a : Lines) : SameEvents [a, a] [a] := fun l₁ l₂ => by
  cases l₁ with
  | nil => simp [changes, List.destutter]
  | cons x l₁ => simpa [changes, List.destutter] using destutter'_repeat x a l₁ l₂

/-- How long a level is held is no event. -/
theorem sameEvents_replicate {n : Nat} (h1 : 1 ≤ n) (a : Lines) : SameEvents (List.replicate n a) [a] := by
  induction n, h1 using Nat.le_induction with
  | base => exact .refl _
  | succ n h1 ih =>
    intro l₁ l₂
    exact (SameEvents.append (.refl [a]) ih l₁ l₂).trans (sameEvents_repeat a l₁ l₂)

/-- The same phases, each one tick long. -/
def unitDwells (c : Config) : Config := { c with tHalf := 1, tCss := 1, tCsh := 1, tCsle := 1, tLew := 1 }

theorem sameEvents_pulsesRows {h : Nat} (h1 : 1 ≤ h) (bits : List Level) :
    SameEvents ((pulsesRows h bits).map WaveRow.lines) ((pulsesRows 1 bits).map WaveRow.lines) := by
  induction bits with
  | nil => exact .refl _
  | cons bit bits ih =>
    simp only [pulsesRows, List.flatMap_cons, List.map_append, pulseRows, List.map_replicate] at ih ⊢
    exact ((sameEvents_replicate h1 _).append (sameEvents_replicate h1 _)).append ih

/-- The dwells of a call make no difference to its events (R114). -/
theorem sameEvents_callRows {c : Config} (hw : c.wf = true) (f : Frame) (before : Level) :
    SameEvents ((callRows c f before).map WaveRow.lines) ((callRows (unitDwells c) f before).map WaveRow.lines) := by
  obtain ⟨hHalf, hCss, hCsh, hCsle, hLew, -⟩ := Config.wf_pos hw
  simp only [callRows, byteRows_high, byteRows_low, List.map_append, List.map_replicate]
  exact ((((((((sameEvents_replicate hCss _).append (sameEvents_pulsesRows hHalf _)).append (.refl _)).append
    (sameEvents_pulsesRows hHalf _)).append (.refl _)).append (sameEvents_replicate hCsh _)).append
    (sameEvents_replicate hCsle _)).append (sameEvents_replicate hLew _)).append (.refl _)

/-- With every phase one tick long the waveform is the event trace of R114, but for `CS_HOLD`, which repeats the levels
that the last falling edge, event 34, has left. -/
theorem changes_unitDwells (c : Config) (f : Frame) (before : Level) :
    changes ((callRows (unitDwells c) f before).map WaveRow.lines) = changes (callEvents f before) :=
  sameEvents_repeat { csN := false, sck := false, mosi := f.getLsbD 0, leN := true }
    ((callEvents f before).take 34) ((callEvents f before).drop 35)

/-- Settles O50: the waveform's dwells are no events, and with every dwell one tick long it is the trace of R114. -/
theorem eventOrderOfACall : Obligations.EventOrderOfACall := by
  unfold Obligations.EventOrderOfACall
  intro c s u ins hw hp hen hlen hsck hu hn hl
  have hlines : (trace ins u).map State.lines = ((trace ins u).map State.waveRow).map WaveRow.lines := by
    rw [List.map_map]
    rfl
  rw [hlines, trace_of_exec hw hen hlen hsck hu hn hl, ← changes_unitDwells s.cfg]
  simpa using sameEvents_callRows hw (s.cfg.ctrl ++ c) s.mosi [] []

/-! ### The run of a call, register by register (R109, R122 to R130) -/

/-- A run goes on from where its first part ends (R120). -/
theorem ticks_append {a : List Inputs} {s u : State} (h : ticks a s = .next u) (b : List Inputs) :
    ticks (a ++ b) s = ticks b u := by
  induction a generalizing s with
  | nil =>
    cases h
    rfl
  | cons inp a ih =>
    cases ht : tick inp s with
    | next t =>
      rw [ticks_cons ht] at h
      rw [List.cons_append, ticks_cons ht, ih h]
    | fault r => nomatch r
    | refused r => simp [ticks, ht] at h

/-- A run goes on from where its first `n` cycles end (R120). -/
theorem ticks_of_take {n : Nat} {ins : List Inputs} {s u : State} (h : ticks (ins.take n) s = .next u) :
    ticks ins s = ticks (ins.drop n) u := by
  rw [← ticks_append h, List.take_append_drop]

theorem NoReset.take {ins : List Inputs} (h : NoReset ins) (n : Nat) : NoReset (ins.take n) :=
  fun inp hi => h inp (List.mem_of_mem_take hi)

/-- Without reset a timed phase keeps everything but its counter while the counter lasts (R132). -/
theorem ticks_stay {ins : List Inputs} {s : State} (hw : s.cfg.wf = true) (hn : NoReset ins) (ht : s.ph.timed = true)
    (hl : ins.length ≤ s.dly.toNat) : ∃ d, ticks ins s = .next { s with dly := d } := by
  induction ins generalizing s with
  | nil => exact ⟨s.dly, rfl⟩
  | cons inp ins ih =>
    rw [List.length_cons] at hl
    have hd : s.dly ≠ 0#_ := fun h => by simp [h] at hl
    have htick : tick inp s = .next s.countDown :=
      (tick_of_edge hw (.stay (hn inp (by simp)) ht hd)).trans (congrArg _ (observe_quiet rfl rfl rfl))
    have hcount := State.countDown_dly_toNat hd
    obtain ⟨d, hrun⟩ := ih (s := s.countDown) hw (fun x hx => hn x (by simp [hx])) ht (by omega)
    exact ⟨d, (ticks_cons htick).trans hrun⟩

/-- A whole dwell, from its load to its exit edge (R132). -/
theorem ticks_dwell {n : Nat} {ins : List Inputs} {s t : State} (hw : s.cfg.wf = true) (ht : s.ph.timed = true)
    (hd : s.dly.toNat = n - 1) (h1 : 1 ≤ n) (hn : NoReset ins) (hl : n ≤ ins.length)
    (he : ∀ inp, inp.rst = false → Edge inp { s with dly := 0#_ } t) :
    ticks ins s = ticks (ins.drop n) (observe { s with dly := 0#_ } t) := by
  simpa using (Shows.dwell (fun _ => t) hw ht hd h1 hn hl he).ticks_eq

/-- The observer does nothing while Chip-Select and the clock do not rise and Latch-Enable does not fall (R136). -/
theorem observe_of_no_event {a b : State} (hc : b.csn = a.csn ∨ b.csn = false) (hk : b.sck = a.sck ∨ b.sck = false)
    (hl : b.len = a.len ∨ b.len = true) : observe a b = b := by
  have hsample : (!a.csn && !a.sck && b.sck) = false := by rcases hk with hk | hk <;> simp [hk]
  have hend : (!a.csn && b.csn) = false := by rcases hc with hc | hc <;> simp [hc]
  have hlatch : (a.len && !b.len) = false := by rcases hl with hl | hl <;> simp [hl]
  simp [observe, Dac.see, hsample, hend, hlatch]

/-- Where Chip-Select rises, and nothing else changes, the interval ends (R136). -/
theorem observe_of_csn_rise {a b : State} (he : a.en = true) (hc : a.csn = false) (hc' : b.csn = true)
    (hk : b.sck = a.sck) (hl : b.len = a.len) : observe a b = { b with dac := b.dac.endInterval } := by
  simp [observe, Dac.see, he, hc, hc', hk, hl]

/-- Where Latch-Enable falls, and nothing else changes, the command taken last goes to the output (R136). -/
theorem observe_of_len_fall {a b : State} (he : a.en = true) (hc : b.csn = a.csn) (hk : b.sck = a.sck)
    (hl : a.len = true) (hl' : b.len = false) : observe a b = { b with dac := b.dac.latch } := by
  cases hs : a.sck <;> simp [observe, Dac.see, he, hc, hk, hl, hl', hs]

/-- What an exchange that clocks out `bits` leaves as it was: the byte index, and of the observer's record everything
but the bits it is shown (R124, R136). -/
structure ExchangeFrame (s : State) (bits : List Level) (t : State) : Prop where
  byteidx : t.byteidx = s.byteidx
  dac : t.dac = { s.dac with bits := s.dac.bits ++ if s.csn then [] else bits }

theorem exchangeFrame_pulse {cur : Byte} {n : Nat} {s u : State} {ins : List Inputs} (hw : s.cfg.wf = true)
    (hs : s.Exchanging cur (n + 1)) (h8 : n + 1 ≤ 8) (hn : NoReset ins) (hl : ins.length = 2 * s.cfg.tHalf)
    (hu : ticks ins s = .next u) : ExchangeFrame s [cur.getLsbD n] u := by
  obtain ⟨hph, hdly, hbit, hmosi, hunsent⟩ := hs.due (by omega)
  obtain ⟨v, -, -, hticks, -, -, hidx, -, -, -, -, -, -, -, -, -, hdac⟩ :=
    bit_run s cur (n + 1) ins hw hs.en hs.sck hbit (by omega) h8 hunsent hph hdly hn hl.ge
  rw [List.drop_of_length_le hl.le, hu] at hticks
  cases hticks
  exact ⟨hidx, by rw [hdac, hmosi]; rfl⟩

/-- A whole exchange leaves what each of its clock pulses leaves (R82). -/
theorem exchangeFrame_complete {cur : Byte} :
    ∀ (n : Nat) {s t : State} {ins : List Inputs}, s.cfg.wf = true → s.Exchanging cur n → n ≤ 8 → NoReset ins →
      ins.length = 2 * s.cfg.tHalf * n → ticks ins s = .next t → ExchangeFrame s (bitsBelow cur n) t := by
  intro n
  induction n with
  | zero =>
    intro s t ins _ _ _ _ hl h
    obtain rfl := List.length_eq_zero_iff.mp hl
    cases h
    exact ⟨rfl, by simp [bitsBelow]⟩
  | succ n ih =>
    intro s t ins hw hs h8 hn hl h
    rw [Nat.mul_add_one] at hl
    have hk : (ins.take (2 * s.cfg.tHalf)).length = 2 * s.cfg.tHalf := by simp; omega
    obtain ⟨u, hpulse, hu⟩ := exchanges_pulse hw hs h8 (hn.take _) hk.ge
    have hfirst : ticks (ins.take (2 * s.cfg.tHalf)) s = .next u := by
      rw [hpulse.ticks_eq, List.drop_of_length_le (by simp)]
      rfl
    rw [ticks_of_take hfirst] at h
    obtain ⟨hidx, hdac⟩ := exchangeFrame_pulse hw hs h8 (hn.take _) hk hfirst
    obtain ⟨hidx', hdac'⟩ := ih (hpulse.cfg ▸ hw) hu (by omega) (hn.drop _)
      (by rw [hpulse.cfg, List.length_drop]; omega) h
    refine ⟨hidx'.trans hidx, ?_⟩
    rw [hdac', hdac, hpulse.csn]
    cases s.csn <;> simp [bitsBelow]

/-- From cycle `start` on, `b` holds the eight levels of the input line in the last cycle of each `SH_LOW`, the first
one in bit 7 (R82, R125). -/
def Received (ins : List Inputs) (start h : Nat) (b : Byte) : Prop :=
  ∀ j, j < 8 → (ins[start + 2 * h * j + h - 1]?).map Inputs.miso = some (b.getLsbD (7 - j))

theorem Received.of_drop {ins : List Inputs} {n start h : Nat} {b : Byte} (h1 : 1 ≤ h)
    (hr : Received (ins.drop n) start h b) : Received ins (n + start) h b := fun j hj => by
  have hdrop := hr j hj
  rw [List.getElem?_drop] at hdrop
  convert hdrop using 3
  omega

/-- The exchange of a byte of a call is over (R109, R126). -/
structure State.ByteSent (s : State) (c : Config) (f : Frame) (b : Byte) (idx : Level) : Prop where
  sending : s.Sending c f
  done : s.Exchanging b 0
  byteidx : s.byteidx = idx

/-- The exchange of the byte `b` of a call, from the tick that starts it (R81, R82, R124). -/
theorem ticks_byte {c : Config} {f : Frame} {s : State} {ins : List Inputs} (hw : c.wf = true) (hs : s.Sending c f)
    (b : Byte) (idx : Level) (hn : NoReset ins) (hl : 16 * c.tHalf ≤ ins.length) :
    ∃ t, ticks ins (((s.loadByte b).clearTc.setByteIdx idx).enter .shLow s.cfg.tHalf) =
        ticks (ins.drop (16 * c.tHalf)) t ∧
      t.ByteSent c f b idx ∧ Received ins 0 c.tHalf t.sr ∧
      t.dac = { s.dac with bits := s.dac.bits ++ bitsBelow b 8 } := by
  obtain ⟨hHalf, -⟩ := Config.wf_pos hw
  obtain ⟨rfl, rfl, hen, hcsn, hlen, hsck⟩ := hs
  set u := ((s.loadByte b).clearTc.setByteIdx idx).enter .shLow s.cfg.tHalf with hu
  have hdue : u.Exchanging b 8 := ⟨hen, hsck, rfl, fun _ => State.pulseDue_of_load b idx hw, nofun⟩
  have hk : (ins.take (16 * s.cfg.tHalf)).length = 2 * u.cfg.tHalf * 8 := by simp [hu]; omega
  have hwu : u.cfg.wf = true := hw
  obtain ⟨t, hrun, hdone⟩ := exchanges_complete 8 hwu hdue le_rfl (hn.take _) hk.ge
  have hend : ticks (ins.take (16 * s.cfg.tHalf)) u = .next t := by
    rw [hrun.ticks_eq, List.drop_of_length_le (by simp [hk])]
    rfl
  obtain ⟨hidx, hdac⟩ := exchangeFrame_complete 8 hwu hdue le_rfl (hn.take _) hk hend
  refine ⟨t, ticks_of_take hend, ⟨⟨hrun.cfg, hrun.fr, hdone.en, hrun.csn.trans hcsn, hrun.len.trans hlen, hdone.sck⟩,
    hdone, hidx⟩, fun j hj => ?_, ?_⟩
  · have hsample := hrun.sampled j (by simpa using hj)
    have hcycle := Nat.mul_le_mul_left (2 * s.cfg.tHalf) (Nat.succ_le_of_lt hj)
    rw [Nat.mul_succ] at hcycle
    rw [List.getElem?_take_of_lt (by simp [hu]; omega)] at hsample
    simpa [hu] using hsample
  · simpa [hu, hcsn] using hdac

/-- `CS_SETUP` of a call, up to the start of the high byte (R123). -/
theorem ticks_setup {c : Config} {f : Frame} {s : State} {ins : List Inputs} (hw : c.wf = true)
    (hs : s.CallStarted c f) (hn : NoReset ins) (hl : c.tCss ≤ ins.length) :
    ticks ins s = ticks (ins.drop c.tCss)
      (((s.loadByte (highByte f)).clearTc.setByteIdx false).enter .shLow s.cfg.tHalf) := by
  obtain ⟨-, hCss, -⟩ := Config.wf_pos hw
  obtain ⟨⟨rfl, rfl, hen, -, -, -⟩, hp, hd⟩ := hs
  exact (ticks_dwell hw (by rw [hp]; rfl) hd hCss hn hl fun _ hr => .startHigh hr hp rfl hen).trans
    (congrArg _ (observe_quiet rfl rfl rfl))

/-- `XDONE` after the high byte (R127). -/
theorem ticks_xdoneHigh {c : Config} {f : Frame} {b : Byte} {s : State} {ins : List Inputs} (hw : c.wf = true)
    (hs : s.ByteSent c f b false) (hn : NoReset ins) (hl : 1 ≤ ins.length) :
    ticks ins s = ticks (ins.drop 1)
      (((s.loadByte (lowByte f)).clearTc.setByteIdx true).enter .shLow s.cfg.tHalf) := by
  obtain ⟨⟨rfl, rfl, hen, -, -, -⟩, hdone, hidx⟩ := hs
  obtain ⟨hp, -, -⟩ := hdone.complete rfl
  obtain ⟨inp, rest, rfl⟩ := List.exists_cons_of_length_pos hl
  exact (ticks_cons (tick_of_edge hw (.startLow (hn inp (by simp)) hp hidx hen))).trans
    (congrArg _ (observe_quiet rfl rfl rfl))

/-- `XDONE` after the low byte (R127). -/
theorem ticks_xdoneLow {c : Config} {f : Frame} {b : Byte} {s : State} {ins : List Inputs} (hw : c.wf = true)
    (hs : s.ByteSent c f b true) (hn : NoReset ins) (hl : 1 ≤ ins.length) :
    ticks ins s = ticks (ins.drop 1) (s.enter .csHold s.cfg.tCsh) := by
  obtain ⟨⟨rfl, rfl, -, -, -, -⟩, hdone, hidx⟩ := hs
  obtain ⟨hp, -, -⟩ := hdone.complete rfl
  obtain ⟨inp, rest, rfl⟩ := List.exists_cons_of_length_pos hl
  exact (ticks_cons (tick_of_edge hw (.hold (hn inp (by simp)) hp hidx))).trans
    (congrArg _ (observe_quiet rfl rfl rfl))

section Tail
variable {s : State} {ins : List Inputs} (hw : s.cfg.wf = true) (hn : NoReset ins)
include hw hn

/-- `CS_HOLD` of a call: the observer takes the interval (R128, R136). -/
theorem ticks_hold (hp : s.ph = .csHold) (hd : s.dly.toNat = s.cfg.tCsh - 1) (hen : s.en = true) (hcsn : s.csn = false)
    (hl : s.cfg.tCsh ≤ ins.length) :
    ticks ins s = ticks (ins.drop s.cfg.tCsh)
      { s with csn := true, ph := .csLeGap, dly := BitVec.ofNat _ (s.cfg.tCsle - 1), dac := s.dac.endInterval } := by
  obtain ⟨-, -, hCsh, -⟩ := Config.wf_pos hw
  exact (ticks_dwell hw (by rw [hp]; rfl) hd hCsh hn hl fun _ hr => .deselect hr hp rfl).trans
    (congrArg _ (observe_of_csn_rise hen hcsn rfl rfl rfl))

/-- `CS_LE_GAP` of a call: the observer latches (R129, R136). -/
theorem ticks_gap (hp : s.ph = .csLeGap) (hd : s.dly.toNat = s.cfg.tCsle - 1) (hen : s.en = true) (hlen : s.len = true)
    (hl : s.cfg.tCsle ≤ ins.length) :
    ticks ins s = ticks (ins.drop s.cfg.tCsle)
      { s with len := false, ph := .lePulse, dly := BitVec.ofNat _ (s.cfg.tLew - 1), dac := s.dac.latch } := by
  obtain ⟨-, -, -, hCsle, -⟩ := Config.wf_pos hw
  exact (ticks_dwell hw (by rw [hp]; rfl) hd hCsle hn hl fun _ hr => .latchDown hr hp rfl).trans
    (congrArg _ (observe_of_len_fall hen rfl rfl hlen rfl))

/-- `LE_PULSE` of a call, up to the return (R130). -/
theorem ticks_latchPulse (hp : s.ph = .lePulse) (hd : s.dly.toNat = s.cfg.tLew - 1) (hl : s.cfg.tLew ≤ ins.length) :
    ticks ins s = ticks (ins.drop s.cfg.tLew) { s with len := true, ph := .idle, dly := 0#_ } := by
  obtain ⟨-, -, -, -, hLew, -⟩ := Config.wf_pos hw
  exact (ticks_dwell hw (by rw [hp]; rfl) hd hLew hn hl fun _ hr => .latchUp hr hp rfl).trans
    (congrArg _ (observe_of_no_event (.inl rfl) (.inl rfl) (.inr rfl)))

end Tail

/-- The end of a call, from `XDONE` after the low byte to the return: Chip-Select rises, Latch-Enable pulses, and the
observer takes the bits of the interval and then latches (R127 to R130, R136). -/
theorem ticks_finish {c : Config} {f : Frame} {b : Byte} {s : State} {ins : List Inputs} (hw : c.wf = true)
    (hs : s.ByteSent c f b true) (hn : NoReset ins) (hl : ins.length = 1 + c.tCsh + c.tCsle + c.tLew) :
    ticks ins s =
      .next { s with ph := .idle, csn := true, len := true, dly := 0#_, dac := s.dac.endInterval.latch } := by
  obtain ⟨-, -, okCsh, okCsle, okLew, -⟩ := Config.wf_dwellOk hw
  rw [ticks_xdoneLow hw hs hn (by omega)]
  obtain ⟨⟨rfl, -, hen, hcsn, hlen, -⟩, -, -⟩ := hs
  calc ticks (ins.drop 1) (s.enter .csHold s.cfg.tCsh)
    _ = _ := ticks_hold (s := s.enter .csHold s.cfg.tCsh) hw (hn.drop _) rfl (Config.dwellOk_load okCsh) hen hcsn
        (by simp; omega)
    _ = _ := ticks_gap hw ((hn.drop _).drop _) rfl (Config.dwellOk_load okCsle) hen hlen (by simp; omega)
    _ = _ := ticks_latchPulse hw (((hn.drop _).drop _).drop _) rfl (Config.dwellOk_load okLew) (by simp; omega)
    _ = _ := by
      rw [List.drop_of_length_le (by simp; omega)]
      rfl

/-- The registers of R109 after a returned call with frame `f`. -/
structure State.Returned (t : State) (f : Frame) : Prop where
  ph : t.ph = .idle
  csn : t.csn = true
  sck : t.sck = false
  len : t.len = true
  fr : t.fr = f
  mosi : t.mosi = f.getLsbD 0
  bitcnt : t.bitcnt = 0#4
  byteidx : t.byteidx = true
  tc : t.tc = true
  dly : t.dly = 0#_
  en : t.en = true

/-- A whole call, from the start of `CS_SETUP`: it returns, with the byte received during the second exchange, and the
observer has taken and latched the frame after whatever bits it held (R109, R136, R183). -/
theorem ticks_call {c : Config} {f : Frame} {s : State} {ins : List Inputs} (hw : c.wf = true)
    (hs : s.CallStarted c f) (hn : NoReset ins) (hl : ins.length = busyCycles c) :
    ∃ t, ticks ins s = .next t ∧ t.Returned f ∧ Received ins (c.tCss + 16 * c.tHalf + 1) c.tHalf t.sr ∧
      t.dac = ({ s.dac with bits := s.dac.bits ++ wireBits f } : Dac).endInterval.latch := by
  obtain ⟨hHalf, -⟩ := Config.wf_pos hw
  unfold busyCycles at hl
  obtain ⟨u, hhigh, hu, -, hdac⟩ :=
    ticks_byte (ins := ins.drop c.tCss) hw hs.sending (highByte f) false (hn.drop _) (by simp; omega)
  obtain ⟨v, hlow, hv, hsr, hdac'⟩ := ticks_byte (ins := ((ins.drop c.tCss).drop (16 * c.tHalf)).drop 1) hw hu.sending
    (lowByte f) true (((hn.drop _).drop _).drop _) (by simp; omega)
  have hrun := ticks_finish hw hv ((((hn.drop c.tCss).drop (16 * c.tHalf)).drop 1).drop (16 * c.tHalf)) (by simp; omega)
  rw [← hlow, ← ticks_xdoneHigh hw hu ((hn.drop _).drop _) (by simp; omega), ← hhigh,
    ← ticks_setup hw hs hn (by omega)] at hrun
  obtain ⟨⟨-, hfr, hen, -, -, hsck⟩, hdone, hidx⟩ := hv
  obtain ⟨-, htc, hmosi⟩ := hdone.complete rfl
  refine ⟨_, hrun, ⟨rfl, rfl, hsck, rfl, hfr, ?_, BitVec.eq_of_toNat_eq hdone.bitcnt, hidx, htc, rfl, hen⟩, ?_, ?_⟩
  · rw [← lowByte_getLsbD f 0 (by decide)]
    exact hmosi
  · have hstart := ((hsr.of_drop hHalf).of_drop hHalf).of_drop hHalf
    rwa [← Nat.add_assoc] at hstart
  · simp only [hdac', hdac, wireBits_eq, List.append_assoc]

/-- An observer that held no bits takes the frame and latches it (R42, R136). -/
theorem Dac.endInterval_wireBits {d : Dac} (hb : d.bits = []) (ht : d.tainted = false) (f : Frame) :
    ({ d with bits := d.bits ++ wireBits f } : Dac).endInterval.latch =
      { d with frames := d.frames ++ [.word f], pending := some (.word f), latched := some (.word f) } := by
  simp [Dac.endInterval, Dac.take, Dac.latch, hb, ht, wireWord_wireBits]

/-- The frame's last bit is the code's (R60). -/
theorem frame_getLsbD_zero (ctrl : Nibble) (c : Code12) : (ctrl ++ c).getLsbD 0 = c.getLsbD 0 := by
  rw [BitVec.getLsbD_append, if_pos (by decide)]

/-- Settles O48: an accepted call runs from the start of `CS_SETUP` to its return. -/
theorem stateAfterAReturnedCall : Obligations.StateAfterAReturnedCall := by
  unfold Obligations.StateAfterAReturnedCall
  intro c s u ins hw _ hen hlen hsck hu hn hl
  obtain ⟨hstart, -, -⟩ := callStarted_of_exec hw hen hlen hsck hu
  obtain ⟨t, hrun, hret, hsr, -⟩ := ticks_call hw hstart hn hl
  obtain ⟨hph, hcsn, hsck, hlen, hfr, hmosi, hbit, hidx, htc, hdly, hen⟩ := hret
  rw [frame_getLsbD_zero] at hmosi
  exact ⟨t, hrun, hph, hcsn, hsck, hlen, hfr, hmosi, hbit, hidx, htc, hdly, hen, hsr⟩

/-! ### A call that finds Latch-Enable asserted (R104) -/

/-- A call stands at the start of `LE_NORM`: Latch-Enable was found asserted and has been raised (R104, R122). -/
structure State.Normalising (s : State) (c : Config) (f : Frame) : Prop where
  cfg : s.cfg = c
  fr : s.fr = f
  ph : s.ph = .leNorm
  len : s.len = true
  dly : s.dly.toNat = c.tLeh - 1

/-- An accepted `WRITEV` that finds Latch-Enable asserted raises it and nothing else yet (R104, R121). -/
theorem normalising_of_exec {c : Code12} {s u : State} (hw : s.cfg.wf = true) (hlen : s.len = false)
    (hu : exec (.writev c) s = .next u) :
    u.Normalising s.cfg (s.cfg.ctrl ++ c) ∧ u.csn = s.csn ∧ u.sck = s.sck ∧ u.en = s.en ∧ u.dac = s.dac := by
  obtain ⟨-, -, -, -, -, okLeh⟩ := Config.wf_dwellOk hw
  rw [exec_writev_norm hlen] at hu
  cases hu
  exact ⟨⟨rfl, rfl, rfl, rfl, Config.dwellOk_load okLeh⟩, rfl, rfl, rfl, rfl⟩

/-- `LE_NORM` up to the fall of Chip-Select (R104, R122). -/
theorem ticks_norm {c : Config} {f : Frame} {s : State} {ins : List Inputs} (hw : c.wf = true)
    (hs : s.Normalising c f) (hn : NoReset ins) (hl : c.tLeh ≤ ins.length) :
    ticks ins s = ticks (ins.drop c.tLeh) (s.assertSelect.enter .csSetup c.tCss) := by
  obtain ⟨-, -, -, -, -, hLeh⟩ := Config.wf_pos hw
  obtain ⟨rfl, rfl, hp, hlen, hd⟩ := hs
  exact (ticks_dwell hw (by rw [hp]; rfl) hd hLeh hn hl fun _ hr => .normDone hr hp rfl).trans
    (congrArg _ (observe_of_no_event (.inr rfl) (.inl rfl) (.inl rfl)))

/-- Settles O53: until the dwell of `LE_NORM` is over only its counter moves; its exit lowers Chip-Select. -/
theorem latchFoundAssertedIsNormalised : Obligations.LatchFoundAssertedIsNormalised := by
  unfold Obligations.LatchFoundAssertedIsNormalised
  intro c s u ins hw _ hlen hu hn
  obtain ⟨hnorm, hcsn, -⟩ := normalising_of_exec hw hlen hu
  have hwu : u.cfg.wf = true := hnorm.cfg ▸ hw
  refine ⟨fun hl => ?_, fun hl => ?_⟩
  · obtain ⟨-, -, hp, hlen, hd⟩ := hnorm
    obtain ⟨d, hrun⟩ := ticks_stay hwu hn (by rw [hp]; rfl) (by omega)
    exact ⟨_, hrun, hp, hlen, hcsn⟩
  · obtain ⟨-, okCss, -⟩ := Config.wf_dwellOk hw
    rw [ticks_norm hw hnorm hn hl.ge, List.drop_of_length_le hl.le]
    obtain ⟨hcfg, hfr, -, hlen, -⟩ := hnorm
    exact ⟨_, rfl, rfl, hlen, rfl, hfr, by simpa [hcfg] using Config.dwellOk_load okCss⟩

/-- Settles O54: after `LE_NORM` the call starts as any other, its observer untouched. -/
theorem callFindingLatchAssertedReturns : Obligations.CallFindingLatchAssertedReturns := by
  unfold Obligations.CallFindingLatchAssertedReturns
  intro c s u ins hw _ hen hlen hsck hbits htaint hu hn hl
  obtain ⟨hnorm, -, hsck', hen', hdac⟩ := normalising_of_exec hw hlen hu
  obtain ⟨hHalf, -⟩ := Config.wf_pos hw
  obtain ⟨-, okCss, -⟩ := Config.wf_dwellOk hw
  have hstart := ticks_norm hw hnorm hn (by omega)
  obtain ⟨hcfg, hfr, -, hlen, -⟩ := hnorm
  obtain ⟨t, hrun, hret, hsr, hdac'⟩ := ticks_call (s := u.assertSelect.enter .csSetup s.cfg.tCss) hw
    ⟨⟨hcfg, hfr, hen'.trans hen, rfl, hlen, hsck'.trans hsck⟩, rfl, by simpa [hcfg] using Config.dwellOk_load okCss⟩
    (hn.drop s.cfg.tLeh) (by simp; omega)
  rw [State.enter_dac, State.assertSelect_dac, hdac, Dac.endInterval_wireBits hbits htaint] at hdac'
  obtain ⟨hph, hcsn, hsck, hlen, hfr, hmosi, hbit, hidx, htc, hdly, hen⟩ := hret
  rw [frame_getLsbD_zero] at hmosi
  have hreceived := hsr.of_drop hHalf
  rw [← Nat.add_assoc, ← Nat.add_assoc] at hreceived
  exact ⟨t, hstart.trans hrun, hph, hcsn, hsck, hlen, hfr, hmosi, hbit, hidx, htc, hdly, hen, hreceived,
    by rw [hdac'], by rw [hdac']⟩

end Sys2Proof.Machine

/-! The step function (42_step_function.md): every tick answers (R120), one rule per phase (R121 to R132), what an
instruction leaves unchanged at its own tick, the observer (R136), the waveform of a call and its counts (R134), and the
targets of R137. -/

namespace Sys2Proof.Machine

/-! ### Every tick answers a next state (R120, R5) -/

/-- A dwell answers a next state whenever its exit does (R132). -/
theorem exists_dwell_next {s : State} {exit : State → Host.Outcome State Fault Refusal} (h : ∃ t, exit s = .next t) :
    ∃ t, dwell s exit = .next t := by
  by_cases hd : s.dly = 0#_
  · rwa [dwell_exit hd]
  · exact ⟨_, dwell_stay hd exit⟩

/-- The rule of every phase answers a next state: its exit is an instruction, which never stops (R150), or a register
operation. -/
theorem exists_blockTick_next (inp : Inputs) (s : State) : ∃ t, blockTick inp s = .next t := by
  cases hr : inp.rst with
  | true => exact ⟨_, edge_blockTick (.reset hr)⟩
  | false =>
    simp only [blockTick, hr, Bool.false_eq_true, if_false]
    cases s.ph with
    | idle =>
      cases hv : inp.cmdValid with
      | true => simpa only [idleTick, hv, if_true] using exec_next _ s
      | false => exact ⟨s, if_neg (by simp [hv])⟩
    | shHigh =>
      refine exists_dwell_next ?_
      cases s.lastPulse <;> exact ⟨_, rfl⟩
    | xdone =>
      cases hb : s.byteidx with
      | true => exact ⟨_, if_pos hb⟩
      | false => simpa [xdoneTick, hb] using exec_next _ s
    | csSetup => exact exists_dwell_next (exec_next _ s)
    | leNorm | shLow | csHold | csLeGap | lePulse => exact exists_dwell_next ⟨_, rfl⟩
    | hung => exact ⟨s, rfl⟩

/-- Settles O14: the block answers in every state, and the configuration is all that a tick can be refused for. -/
theorem tickIsTotalOrRefusesTheConfiguration : Obligations.TickIsTotalOrRefusesTheConfiguration := by
  unfold Obligations.TickIsTotalOrRefusesTheConfiguration
  intro inp s
  refine ⟨fun hw => ?_, fun hw => by simp [tick, hw]⟩
  obtain ⟨t, ht⟩ := exists_blockTick_next inp s
  exact ⟨observe s t, tick_of_edge hw (blockTick_edge ht)⟩

/-! ### The tick as an instruction (R121, R136) -/

/-- In `IDLE` a presented word is decoded and executed (R121). -/
theorem blockTick_idle {inp : Inputs} {s : State} (hr : inp.rst = false) (hp : s.ph = .idle)
    (hv : inp.cmdValid = true) : blockTick inp s = exec (decodeHost inp.cmd) s := by
  simp [blockTick, idleTick, hr, hp, hv]

/-- Settles O11: a step is a tick from the state whose host agent has moved on, and that state is in `IDLE` too. -/
theorem stepRunsThePresentedCommand : Obligations.StepRunsThePresentedCommand := by
  unfold Obligations.StepRunsThePresentedCommand
  rintro s i hw hp hr hv rfl
  have htick : step s = onNext (blockTick s.inputs s.advanceHost) (observe s.advanceHost) := if_pos hw
  rw [htick, blockTick_idle (s := s.advanceHost) hr hp hv]

/-- An observer that holds the bits of a frame takes that frame when the interval ends (R41, R136). -/
theorem Dac.endInterval_of_wireBits {d : Dac} {w : Frame} (h : d.bits = wireBits w) : d.endInterval = d.take w := by
  rw [Dac.endInterval, if_pos (by simp [h]), h, wireWord_wireBits]

/-- Settles O13: the tick raises Chip-Select, and the observer takes the word, which is the decoded frame's two
fields. -/
theorem stepRunsTheFrameOnTheWire : Obligations.StepRunsTheFrameOnTheWire := by
  unfold Obligations.StepRunsTheFrameOnTheWire
  intro inp s w i hw hr hp hd hen hcsn hbits hi
  obtain ⟨ctrl, code, rfl, -, rfl⟩ := decodeWire_ok hi
  have hsee := observe_of_csn_rise (b := s.deassertSelect.enter .csLeGap s.cfg.tCsle) hen hcsn rfl rfl rfl
  rw [tick_of_edge hw (.deselect hr hp hd), hsee, State.enter_dac, State.deassertSelect_dac,
    Dac.endInterval_of_wireBits hbits]
  rfl

/-! ### One rule per phase (R121 to R130) -/

/-- Settles O21: each case of the rule is an edge out of `IDLE`. -/
theorem idleRule : Obligations.IdleRule := by
  unfold Obligations.IdleRule
  intro inp s hr hp
  have quiet {i : Instr} (hi : decodeHost inp.cmd = i) (h1 : i ≠ .init) (h2 : ∀ c, i ≠ .writev c) :
      blockTick inp s = .next s := edge_blockTick (.quiet hr hp fun _ => hi ▸ ⟨h1, h2⟩)
  refine ⟨by simp [State.outputs, State.ready, hp], fun hv => edge_blockTick (.quiet hr hp (by simp [hv])),
    fun _ hi => quiet hi nofun nofun, fun _ hi => quiet hi nofun nofun, fun _ _ hi => quiet hi nofun nofun,
    fun _ _ hi => quiet hi nofun nofun, fun hv hi => edge_blockTick (.init hr hp hv hi), fun c hv hi hl => ?_,
    fun c hv hi hl => ?_⟩
  · rw [blockTick_idle hr hp hv, hi]
    exact exec_writev_norm hl c
  · rw [blockTick_idle hr hp hv, hi]
    exact exec_writev hl c

/-- Settles O22: the rule is an edge of the phase graph. -/
theorem latchNormalisedExit : Obligations.LatchNormalisedExit := by
  unfold Obligations.LatchNormalisedExit
  exact fun inp s hr hp hd => edge_blockTick (.normDone hr hp hd)

/-- `start_xchg` on an enabled Transport, register by register (R124). -/
theorem State.startXchg_enabled_eq {s : State} (he : s.en = true) (b : Byte) (idx : Level) :
    s.startXchg b idx =
      { s with sr := b, tc := false, bitcnt := 8#4, mosi := b.getLsbD 7, byteidx := idx, ph := .shLow,
               dly := BitVec.ofNat _ (s.cfg.tHalf - 1) } := by
  rw [State.startXchg_enabled he, ← BitVec.msb_eq_getLsbD_last b]
  rfl

/-- Settles O33: `T_XCHG` is `start_xchg` with the index read from the phase. -/
theorem exchangeStartsOrHangs : Obligations.ExchangeStartsOrHangs := by
  unfold Obligations.ExchangeStartsOrHangs
  intro b s
  have start (idx : Level) (he : s.en = true) := State.startXchg_enabled_eq he b idx
  have hang (idx : Level) (he : s.en = false) := State.startXchg_disabled he b idx
  exact ⟨fun he => congrArg Host.Outcome.next (start _ he), fun he => congrArg Host.Outcome.next (hang _ he),
    fun idx => ⟨start idx, hang idx⟩⟩

/-- Settles O23: the exit of `CS_SETUP` is `T_XCHG` of the high byte. -/
theorem setupExitStartsTheHighByte : Obligations.SetupExitStartsTheHighByte := by
  unfold Obligations.SetupExitStartsTheHighByte
  intro inp s hr hp hd
  refine ⟨fun he => edge_blockTick (.hangHigh hr hp hd he), fun he => ?_⟩
  rw [edge_blockTick (.startHigh hr hp hd he), ← State.startXchg_enabled he, State.startXchg_enabled_eq he,
    highByte_getLsbD s.fr 7 (by decide)]
  rfl

/-- Settles O25: after the low byte the hold dwell, after the high one `T_XCHG` of the low byte. -/
theorem byteDoneRule : Obligations.ByteDoneRule := by
  unfold Obligations.ByteDoneRule
  intro inp s hr hp
  refine ⟨fun hb => edge_blockTick (.hold hr hp hb), fun hb he => ?_,
    fun hb he => edge_blockTick (.hangLow hr hp hb he)⟩
  rw [edge_blockTick (.startLow hr hp hb he), ← State.startXchg_enabled he, State.startXchg_enabled_eq he,
    lowByte_getLsbD s.fr 7 (by decide)]
  rfl

/-- Settles O24: the two exits of `SH_HIGH` differ in whether the eighth pulse ends, and the counter wraps in four
bits. -/
theorem clockEdges : Obligations.ClockEdges := by
  unfold Obligations.ClockEdges
  intro inp s hr hd
  refine ⟨fun hp => edge_blockTick (.rise hr hp hd), fun hp hb => ?_, fun hp hb => ?_⟩
  · rw [edge_blockTick (.lastFall hr hp hd hb), show 0#4 = s.bitcnt - 1#4 by rw [hb]; rfl]
    rfl
  · rw [edge_blockTick (.fall hr hp hd hb), ← BitVec.msb_eq_getLsbD_last s.sr]
    rfl

/-- Settles O26: the three rules are edges of the phase graph. -/
theorem endOfCallRules : Obligations.EndOfCallRules := by
  unfold Obligations.EndOfCallRules
  exact fun inp s hr hd => ⟨fun hp => edge_blockTick (.deselect hr hp hd),
    fun hp => edge_blockTick (.latchDown hr hp hd), fun hp => edge_blockTick (.latchUp hr hp hd)⟩

/-! ### The dwell and the hang (R131, R132) -/

/-- A tick that changes no level the observer reads is the edge alone (R136). -/
theorem tick_of_quiet_edge {inp : Inputs} {s t : State} (hw : s.cfg.wf = true) (h : Edge inp s t)
    (hc : t.csn = s.csn) (hk : t.sck = s.sck) (hl : t.len = s.len) : tick inp s = .next t := by
  rw [tick_of_edge hw h, observe_quiet hc hk hl]

/-- As many ticks as the counter allows subtract their number from it (R132). -/
theorem ticks_countDown {ins : List Inputs} {s : State} (hw : s.cfg.wf = true) (hn : NoReset ins)
    (ht : s.ph.timed = true) (hl : ins.length ≤ s.dly.toNat) :
    ticks ins s = .next { s with dly := s.dly - BitVec.ofNat _ ins.length } := by
  induction ins generalizing s with
  | nil => simp [ticks]
  | cons inp ins ih =>
    rw [List.length_cons] at hl
    have hd : s.dly ≠ 0#_ := fun h => by simp [h] at hl
    have hcount := State.countDown_dly_toNat hd
    have hsub : s.dly - 1#_ - BitVec.ofNat s.cfg.dlyW ins.length = s.dly - BitVec.ofNat _ (ins.length + 1) := by
      rw [BitVec.sub_sub, Nat.add_comm, BitVec.ofNat_add]
    rw [ticks_cons (tick_of_quiet_edge hw (.stay (hn inp (by simp)) ht hd) rfl rfl rfl), List.length_cons, ← hsub]
    exact ih (s := s.countDown) hw (fun x hx => hn x (by simp [hx])) ht (by omega)

/-- Settles O27: tick by tick the counter moves alone, so over a run it has lost the run's length. -/
theorem dwellLastsExactlyItsCount : Obligations.DwellLastsExactlyItsCount := by
  unfold Obligations.DwellLastsExactlyItsCount
  exact ⟨fun inp s hr ht hd => blockTick_stay hr ht hd, fun ins s hw hn ht hl => ticks_countDown hw hn ht hl⟩

/-- A run without reset leaves `HUNG` as it is (R131). -/
theorem ticks_hung {ins : List Inputs} {s : State} (hw : s.cfg.wf = true) (hp : s.ph = .hung) (hn : NoReset ins) :
    ticks ins s = .next s := by
  induction ins with
  | nil => rfl
  | cons inp ins ih =>
    rw [ticks_cons (tick_of_quiet_edge hw (.hungStay (hn inp (by simp)) hp) rfl rfl rfl)]
    exact ih fun x hx => hn x (by simp [hx])

/-- Settles O28: the phase stays `HUNG`, and `ready` is 1 in `IDLE` alone. -/
theorem hungIsLeftOnlyByReset : Obligations.HungIsLeftOnlyByReset := by
  unfold Obligations.HungIsLeftOnlyByReset
  exact fun ins s hw hp hn => ⟨ticks_hung hw hp hn, by simp [State.outputs, State.ready, hp]⟩

/-! ### What an instruction leaves unchanged, and the outputs (R121, R124, R133) -/

/-- Settles O35: one case per constructor; `WRITEV` reads Latch-Enable first, `T_XCHG` the Transport's enable. -/
theorem frameOfEveryInstruction : Obligations.FrameOfEveryInstruction := by
  unfold Obligations.FrameOfEveryInstruction
  intro i s t h
  cases i with
  | nop | init | reserved3 | reserved47 | reserved8F | tInit | tSel | tDesel =>
    cases h
    simp [State.noEffect]
  | frame ctrl code =>
    cases h
    simp
  | writev code =>
    cases hl : s.len with
    | true =>
      rw [exec_writev hl] at h
      cases h
      simp
    | false =>
      rw [exec_writev_norm hl] at h
      cases h
      simp
  | tXchg b =>
    cases he : s.en with
    | true =>
      rw [exec_tXchg_enabled he] at h
      cases h
      simp [he]
    | false =>
      cases h
      simp [State.startXchg_disabled he, State.hang, he]

/-- Settles O36: the outputs are read off the registers one by one. -/
theorem outputsAreTheRegisters : Obligations.OutputsAreTheRegisters := by
  unfold Obligations.OutputsAreTheRegisters
  exact fun s => ⟨beq_iff_eq, rfl, rfl, rfl, rfl, rfl⟩

/-! ### The observer (R136) -/

/-- Settles O34: the frame becomes the pending command, unless a partial frame has been seen. -/
theorem frameIsTakenByTheDac : Obligations.FrameIsTakenByTheDac := by
  unfold Obligations.FrameIsTakenByTheDac
  refine fun ctrl code s => ⟨fun ht => ?_, fun ht => ?_⟩
  · simp [exec, execFrame, Dac.take, ht]
  · simp [exec, execFrame, Dac.take, ht]

/-- The observer, lost from `d` on, has answered nothing but `undefined` since (R136, U1). -/
def Dac.LostSince (d e : Dac) : Prop := e.Lost ∧ ∃ l, e.frames = d.frames ++ l ∧ ∀ x ∈ l, x = Seen.undefined

/-- The end of an interval leaves a lost observer lost, with one undefined entry more (R136). -/
theorem Dac.LostSince.endInterval {d e : Dac} (h : d.LostSince e) : d.LostSince e.endInterval := by
  obtain ⟨⟨ht, hp, hl⟩, l, hf, hu⟩ := h
  have hentry : e.endInterval.Lost ∧ e.endInterval.frames = e.frames ++ [.undefined] := by
    by_cases h16 : e.bits.length = 16
    · simp [Dac.endInterval, Dac.take, Dac.Lost, h16, ht, hl]
    · simp [Dac.endInterval, Dac.takePartial, Dac.Lost, h16]
  refine ⟨hentry.1, l ++ [.undefined], by rw [hentry.2, hf, List.append_assoc], ?_⟩
  simpa [or_imp, forall_and] using hu

/-- A lost observer that watches a tick stays lost: a sampled bit is no answer, and what is latched was undefined
already (R136). -/
theorem Dac.LostSince.see {d e : Dac} (h : d.LostSince e) (a b : State) : d.LostSince (e.see a b) := by
  have sample {e : Dac} (h : d.LostSince e) (x : Level) : d.LostSince (e.sample x) := h
  have latch {e : Dac} (h : d.LostSince e) : d.LostSince e.latch := by
    obtain ⟨⟨ht, hp, -⟩, hf⟩ := h
    exact ⟨⟨ht, hp, hp⟩, hf⟩
  have ifSeen {e : Dac} {f : Dac → Dac} (event : Bool) (hf : ∀ {e}, d.LostSince e → d.LostSince (f e))
      (h : d.LostSince e) : d.LostSince (if event then f e else e) := by
    cases event
    · exact h
    · exact hf h
  exact ifSeen _ latch (ifSeen _ Dac.LostSince.endInterval (ifSeen _ (sample · a.mosi) h))

/-- Settles O43: no edge touches the observer, and a tick only shows it the two states. -/
theorem observerStaysUndefined : Obligations.ObserverStaysUndefined := by
  unfold Obligations.ObserverStaysUndefined
  intro ins s t hs
  refine ticks_induction (P := fun u => s.dac.LostSince u.dac) (fun inp a b ha h => ?_) ins s t
    ⟨hs, [], by simp, by simp⟩
  obtain ⟨-, u, hedge, rfl⟩ := tick_edge h
  rw [← hedge.dac_eq] at ha
  unfold observe
  split
  · exact ha.see a u
  · exact ha

/-! ### The waveform of a call and its counts (R134, R183) -/

/-- Settles O45: the accepting cycle shows `IDLE`, and from the next one on the call shows its rows. -/
theorem waveformOfACall : Obligations.WaveformOfACall := by
  unfold Obligations.WaveformOfACall
  intro c s u ins hw hp hen hlen hsck hcsn hu hn hl
  rw [List.map_cons, trace_of_exec hw hen hlen hsck hu hn hl]
  simp [State.waveRow, State.outputs, hp, hcsn, hsck, hlen]

section Counts
variable {p : WaveRow → Bool} {v : Bool}
  (low : ∀ bit, p { ph := .shLow, csN := false, sck := false, mosi := bit, leN := true } = v)
  (high : ∀ bit, p { ph := .shHigh, csN := false, sck := true, mosi := bit, leN := true } = v)
include low high

/-- What does not change with clock and data is counted in every cycle of some clock pulses or in none. -/
theorem countP_pulsesRows (h : Nat) (bits : List Level) :
    (pulsesRows h bits).countP p = if v then 2 * h * bits.length else 0 := by
  induction bits with
  | nil => simp [pulsesRows]
  | cons bit bits ih =>
    rw [pulsesRows, List.flatMap_cons, List.countP_append, ← pulsesRows, ih, pulseRows, List.countP_append,
      List.countP_replicate, List.countP_replicate, low, high, List.length_cons, Nat.mul_add_one]
    cases v
    · simp
    · simp; omega

/-- A count over the rows of R134, phase by phase, of what does not change with clock and data. -/
theorem countP_callRows (c : Config) (f : Frame) (before : Level) :
    (callRows c f before).countP p =
      (if p { ph := .csSetup, csN := false, sck := false, mosi := before, leN := true } then c.tCss else 0) +
      (if v then 16 * c.tHalf else 0) +
      (if p { ph := .xdone, csN := false, sck := false, mosi := f.getLsbD 8, leN := true } then 1 else 0) +
      (if v then 16 * c.tHalf else 0) +
      (if p { ph := .xdone, csN := false, sck := false, mosi := f.getLsbD 0, leN := true } then 1 else 0) +
      (if p { ph := .csHold, csN := false, sck := false, mosi := f.getLsbD 0, leN := true } then c.tCsh else 0) +
      (if p { ph := .csLeGap, csN := true, sck := false, mosi := f.getLsbD 0, leN := true } then c.tCsle else 0) +
      (if p { ph := .lePulse, csN := true, sck := false, mosi := f.getLsbD 0, leN := false } then c.tLew else 0) +
      (if p { ph := .idle, csN := true, sck := false, mosi := f.getLsbD 0, leN := true } then 1 else 0) := by
  have hbyte : 2 * c.tHalf * 8 = 16 * c.tHalf := by omega
  simp only [callRows, byteRows_high, byteRows_low, List.countP_append, List.countP_replicate, List.countP_singleton,
    countP_pulsesRows low high, bitsBelow_length, hbyte]

end Counts

/-- Settles O46: the counts over the rows of R134. -/
theorem countsOfACall : Obligations.CountsOfACall := by
  unfold Obligations.CountsOfACall
  intro c s u ins hw _ hen hlen hsck hu hn hl
  have hrows := trace_of_exec hw hen hlen hsck hu hn hl
  have count (p : WaveRow → Bool) : (trace ins u).countP (fun t => p t.waveRow) =
      (callRows s.cfg (s.cfg.ctrl ++ c) s.mosi).countP p := by
    rw [← hrows, List.countP_map]
    rfl
  refine ⟨(count fun r => !(r.ph == .idle)).trans ?_, (count fun r => !r.csN).trans ?_,
    (count fun r => !r.leN).trans ?_⟩
  · rw [countP_callRows (v := true) (fun _ => rfl) fun _ => rfl]
    simp [busyCycles]
    omega
  · rw [countP_callRows (v := true) (fun _ => rfl) fun _ => rfl]
    simp
    omega
  · rw [countP_callRows (v := false) (fun _ => rfl) fun _ => rfl]
    simp

/-! ### The targets of R137 -/

/-- Settles O49: the observer held no bits, so the sixteen of the call are its frame. -/
theorem dacReceivesExactlyTheFrame : Obligations.DacReceivesExactlyTheFrame := by
  unfold Obligations.DacReceivesExactlyTheFrame
  intro c s u t ins hw _ hen hlen hsck _ hbits htaint hu hn hl ht
  obtain ⟨hstart, -, hdac⟩ := callStarted_of_exec hw hen hlen hsck hu
  obtain ⟨v, hrun, -, -, hdac'⟩ := ticks_call hw hstart hn hl
  rw [hrun] at ht
  cases ht
  rw [hdac, Dac.endInterval_wireBits hbits htaint] at hdac'
  simp [hdac', hbits, htaint]

/-- With the Transport enabled Chip-Select is low exactly in the phases of a call from `CS_SETUP` to `CS_HOLD`: `HUNG`
needs it disabled (R26; target 3 of R137). -/
theorem State.PhaseInv.csn_low_iff {s : State} (h : s.PhaseInv) (he : s.en = true) :
    s.csn = false ↔ s.ph = .csSetup ∨ s.ph = .shLow ∨ s.ph = .shHigh ∨ s.ph = .xdone ∨ s.ph = .csHold := by
  have hhung : s.ph ≠ .hung := fun hp => by simp [h.hung hp] at he
  rw [h.select]
  cases hp : s.ph <;> simp [Phase.selected, hp] at hhung ⊢

/-- A run that answers is its first part and then the rest (R120; target 5 of R137). -/
theorem ticks_append_eq_next {first second : List Inputs} {s t : State} :
    ticks (first ++ second) s = .next t ↔ ∃ u, ticks first s = .next u ∧ ticks second u = .next t := by
  induction first generalizing s with
  | nil => simp [ticks]
  | cons inp first ih =>
    cases hu : tick inp s with
    | next u =>
      rw [List.cons_append, ticks_cons hu, ticks_cons hu]
      exact ih
    | fault r => nomatch r
    | refused r => simp [ticks, hu]

/-- Settles O60: R26 holds after any run from reset, and runs compose. -/
theorem linesFromResetAndRunsCompose : Obligations.LinesFromResetAndRunsCompose := by
  unfold Obligations.LinesFromResetAndRunsCompose
  refine ⟨fun ins s t h => ?_, fun first second s t => ticks_append_eq_next⟩
  have hinv : t.Inv := ticks_induction (fun _ _ _ => tick_keeps_inv) ins _ t s.resetRegs_inv h
  refine ⟨hinv.phaseInv.csn_low_iff, fun hready => ?_⟩
  obtain ⟨-, -, hlen, -, -⟩ := hinv.idle_rest (beq_iff_eq.mp hready)
  exact hlen

end Sys2Proof.Machine

/-! The exceptional end (60_exceptions.md): a call on a disabled Transport hangs (R83, R154). -/

namespace Sys2Proof.Machine

/-- `CS_SETUP` on a disabled Transport: the dwell runs out, its exit hangs, and nothing leaves `HUNG` (R123, R124,
R131). -/
theorem ticks_setup_hangs {ins : List Inputs} {s : State} (hw : s.cfg.wf = true) (hp : s.ph = .csSetup)
    (hd : s.dly.toNat = s.cfg.tCss - 1) (he : s.en = false) (hn : NoReset ins) (hl : s.cfg.tCss ≤ ins.length) :
    ticks ins s = .next { s with ph := .hung, dly := 0#_ } := by
  obtain ⟨-, hCss, -⟩ := Config.wf_pos hw
  calc ticks ins s
    _ = ticks (ins.drop s.cfg.tCss) { s with ph := .hung, dly := 0#_ } :=
      (ticks_dwell hw (by rw [hp]; rfl) hd hCss hn hl fun _ hr => .hangHigh hr hp rfl he).trans
        (congrArg _ (observe_quiet rfl rfl rfl))
    _ = .next { s with ph := .hung, dly := 0#_ } := ticks_hung hw rfl (hn.drop s.cfg.tCss)

/-- Settles O52: the accept tick loads the frame and lowers Chip-Select, and `CS_SETUP` then ends in the hang. -/
theorem writeBeforeInitHangsForever : Obligations.WriteBeforeInitHangsForever := by
  unfold Obligations.WriteBeforeInitHangsForever
  intro c s u ins hw _ hen hlen hu hn hl
  obtain ⟨-, okCss, -⟩ := Config.wf_dwellOk hw
  rw [exec_writev hlen] at hu
  cases hu
  exact ticks_setup_hangs hw rfl (Config.dwellOk_load okCss) hen hn hl

end Sys2Proof.Machine

/-! Reset, the host's duties and the end of a run (70_reset_and_hazards.md): what the pins show after reset (R171), that
a held reset changes nothing more (R170), what a host that keeps its duties is promised (R173, R174, R176), the partial
frame that a reset can make (R176), and the run that a hang never ends (R186). -/

namespace Sys2Proof.Machine

/-! ### The host's duties (R173, R174, R176) -/

/-- Sixteen bits make a whole frame, so the end of their interval leaves the observer as sure as it was (R42, R136). -/
theorem Dac.endInterval_tainted {d : Dac} (h16 : d.bits.length = 16) : d.endInterval.tainted = d.tainted := by
  simp [Dac.endInterval, Dac.take, h16]

/-- An interval that ends after any other number of bits is a partial frame (R136). -/
theorem Dac.endInterval_partial {d : Dac} (h16 : d.bits.length ≠ 16) : d.endInterval = d.takePartial := if_neg h16

/-- The observer stays sure of what it has seen over a tick that raises Chip-Select, if it does, after sixteen bits and
with the clock low (R136). -/
theorem observe_untainted {a b : State} (ht : b.dac.tainted = false) (hk : b.csn = true → b.sck = false)
    (h16 : a.csn = false → b.csn = true → b.dac.bits.length = 16) : (observe a b).dac.tainted = false := by
  cases he : a.en with
  | false => rwa [observe_disabled he]
  | true =>
    have hsee : (observe a b).dac = b.dac.see a b := by simp [observe, he]
    rw [hsee]
    cases hend : !a.csn && b.csn with
    | false => rw [(b.dac.see_of_no_end hend).2, ht]
    | true =>
      obtain ⟨hlow, hhigh⟩ : a.csn = false ∧ b.csn = true := by simpa using hend
      rw [(b.dac.see_of_end hlow hhigh (hk hhigh)).2, Dac.endInterval_tainted (h16 hlow hhigh), ht]

/-- Chip-Select rises at a reset or at the end of a call's hold, nowhere else (R87, R128, R177). -/
theorem Edge.csn_rise {inp : Inputs} {s t : State} (h : Edge inp s t) (hi : s.PhaseInv) (hlow : s.csn = false)
    (hhigh : t.csn = true) : inp.rst = true ∨ s.ph = .csHold := by
  cases h with
  | reset hr => exact .inl hr
  | deselect _ hp => exact .inr hp
  | init _ hp => exact absurd hp (hi.busy_of_csn hlow)
  | write | normDone => exact nomatch hhigh
  | quiet | hungStay | stay | writeNorm | startHigh | hangHigh | rise | fall | lastFall | startLow | hangLow | hold
  | latchDown | latchUp => exact absurd (hlow.symm.trans hhigh) Bool.false_ne_true

/-- In `CS_HOLD` all sixteen bits of the frame are out (R41, R42). -/
theorem State.WireInv.length_of_csHold {s : State} (hw : s.WireInv) (hp : s.ph = .csHold) :
    s.dac.bits.length = 16 := by
  simp [hw.shown, State.sampledCount, hp]

/-- A block whose Transport is enabled outside `IDLE` is not hung (R26 item 6). -/
theorem State.PhaseInv.ph_ne_hung {s : State} (h : s.PhaseInv) (he : s.ph ≠ .idle → s.en = true) : s.ph ≠ .hung :=
  fun hp => by simp [h.hung hp, hp] at he

/-- No edge outside reset disables the Transport, and the one that starts a call needs it enabled if the host keeps its
duty (R173, R174). -/
theorem Edge.keeps_enabled {inp : Inputs} {s t : State} (h : Edge inp s t) (hduty : Dutiful inp s)
    (hs : s.ph ≠ .idle → s.en = true) (hp : t.ph ≠ .idle) : t.en = true := by
  cases h with
  | reset | latchUp => exact absurd rfl hp
  | init => rfl
  | write _ hp' hv code hi | writeNorm _ hp' hv code hi => exact hduty.init_before_write hp' hv code hi
  | quiet | stay | hungStay => exact hs hp
  | normDone _ hp' | startHigh _ hp' | hangHigh _ hp' | rise _ hp' | fall _ hp' | lastFall _ hp' | startLow _ hp'
  | hangLow _ hp' | hold _ hp' | deselect _ hp' | latchDown _ hp' => exact hs (by simp [hp'])

/-- Settles O42: a dutiful host resets a block that is not hung in `IDLE` only, where Chip-Select is high, so Chip-Select
rises only at the end of `CS_HOLD`, over a whole frame. -/
theorem dutifulHostKeepsTheBlockSound : Obligations.DutifulHostKeepsTheBlockSound := by
  unfold Obligations.DutifulHostKeepsTheBlockSound
  intro inp s t hi hw hs hduty h
  obtain ⟨-, u, hedge, rfl⟩ := tick_edge h
  have hu := hedge.keeps_phaseInv hi.phaseInv
  have hen := hedge.keeps_enabled hduty hs.enabled
  refine ⟨⟨hen, observe_untainted ?_ hu.sck_of_csn fun hlow hhigh => ?_⟩, hu.ph_ne_hung hen⟩
  · rw [hedge.dac_eq, hs.untainted]
  · have hhold : s.ph = .csHold := by
      rcases hedge.csn_rise hi.phaseInv hlow hhigh with hr | hp
      · rcases hduty.reset_only_at_rest hr with hidle | hhung
        · exact absurd hidle (hi.phaseInv.busy_of_csn hlow)
        · exact absurd hhung (hi.phaseInv.ph_ne_hung hs.enabled)
      · exact hp
    rw [hedge.dac_eq, hw.length_of_csHold hhold]

/-! ### The reset (R170, R171, R176) -/

/-- The registers after a reset are those of the reset state, whatever the parameters (R24). -/
theorem State.resetRegs_sameRegs (s : State) : s.resetRegs.SameRegs State.reset :=
  ⟨rfl, rfl, rfl, rfl, rfl, by simp [State.reset]⟩

/-- The registers alone say whether a command can be accepted (R21). -/
theorem State.SameRegs.ready_eq {s t : State} (h : s.SameRegs t) : s.ready = t.ready := by
  obtain ⟨-, -, -, -, hph, -⟩ := h
  rw [State.ready, State.ready, hph]

/-- Each cycle of a held reset resets anew, so the last one alone decides the registers (R170). -/
theorem ticks_reset {ins : List Inputs} {s : State} (hw : s.cfg.wf = true) (hne : ins ≠ [])
    (hr : ∀ inp ∈ ins, inp.rst = true) : ∃ t, ticks ins s = .next t ∧ t.SameRegs State.reset := by
  induction ins generalizing s with
  | nil => exact absurd rfl hne
  | cons inp rest ih =>
    rw [ticks_cons (tick_of_edge hw (.reset (hr inp (by simp))))]
    by_cases hrest : rest = []
    · exact ⟨observe s s.resetRegs, by rw [hrest, ticks], s.resetRegs_sameRegs⟩
    · exact ih (s := observe s s.resetRegs) hw hrest fun x hx => hr x (by simp [hx])

/-- Settles O20: the reset registers are those of `IDLE`. -/
theorem heldResetStaysReset : Obligations.HeldResetStaysReset := by
  unfold Obligations.HeldResetStaysReset
  intro ins s hw hne hr
  obtain ⟨t, ht, hregs⟩ := ticks_reset hw hne hr
  exact ⟨t, ht, hregs, hregs.ready_eq⟩

/-- A reset with Chip-Select low and driven ends the interval: no bit is sampled, the clock being low after it, and
nothing is latched, Latch-Enable being high after it (R24, R136). -/
theorem observe_reset {s : State} (he : s.en = true) (hc : s.csn = false) :
    observe s s.resetRegs = { s.resetRegs with dac := s.dac.endInterval } := by
  simp [observe, Dac.see, he, hc]

/-- Settles O44: the reset ends an interval that is no whole frame. -/
theorem resetMidFrameIsAPartialFrame : Obligations.ResetMidFrameIsAPartialFrame := by
  unfold Obligations.ResetMidFrameIsAPartialFrame
  intro inp s hw hr he hc h16
  refine ⟨_, tick_of_edge hw (.reset hr), ?_⟩
  rw [observe_reset he hc, Dac.endInterval_partial h16]
  exact ⟨rfl, ⟨rfl, rfl, rfl⟩, rfl⟩

/-- While `bus_oe = 0` the block drives no bus pad (R21). -/
theorem Outputs.pad_eq_none {o : Outputs} (h : o.busOe = false) (level : Level) : o.pad level = none := by
  simp [Outputs.pad, h]

/-- Settles O19: the pins show the reset registers of R24, and `bus_oe` is among them. -/
theorem resetAtThePins : Obligations.ResetAtThePins := by
  unfold Obligations.ResetAtThePins
  intro inp s hr
  have hoe : s.resetRegs.outputs.busOe = false := rfl
  exact ⟨s.resetRegs, edge_blockTick (.reset hr), rfl, Outputs.pad_eq_none hoe _, Outputs.pad_eq_none hoe _,
    Outputs.pad_eq_none hoe _⟩

/-! ### The end of a run (R186) -/

/-- A run after its first step. -/
theorem run_succ {n : Nat} {s u : State} (h : step s = .next u) :
    Sys2Proof.core.run (n + 1) s = Sys2Proof.core.run n u := by
  simp [Host.Core.run, Sys2Proof.core, h]

/-- What every step keeps, every run of the machine keeps (R185). -/
theorem run_induction {P : State → Prop} (keep : ∀ s t, P s → step s = .next t → P t) (n : Nat) {s t : State}
    (hs : P s) (h : Sys2Proof.core.run n s = .next t) : P t := by
  induction n generalizing s with
  | zero =>
    cases h
    exact hs
  | succ n ih =>
    cases hu : step s with
    | next u =>
      rw [run_succ hu] at h
      exact ih (keep s u hs hu) h
    | fault r => nomatch r
    | refused r => simp [Host.Core.run, Sys2Proof.core, hu] at h

/-- A cycle over takes the script's head with it (log 2). -/
theorem HostAgent.advance_script (h : HostAgent) (ready : Level) : (h.advance ready).script = h.script.tail := by
  obtain ⟨_ | ⟨i, rest⟩, program⟩ := h
  · cases ready <;> rfl
  · rfl

/-- While no reset is scripted the host gives none: once the script is used up it never resets (log 2). -/
theorem State.inputs_rst {s : State} (hn : NoReset s.host.script) : s.inputs.rst = false := by
  unfold State.inputs
  cases hs : s.host.script with
  | cons i rest => exact hn i (by simp [hs])
  | nil =>
    unfold State.eagerInputs
    cases s.host.program <;> rfl

/-- A step of a hung block with no reset scripted leaves both so (R131; log 2). -/
theorem step_hung {s t : State} (hs : s.ph = .hung ∧ NoReset s.host.script) (h : step s = .next t) :
    t.ph = .hung ∧ NoReset t.host.script := by
  obtain ⟨hp, hn⟩ := hs
  refine ⟨?_, ?_⟩
  · rw [tick_hung (s := s.advanceHost) hp (State.inputs_rst hn) h, State.advanceHost_ph, hp]
  · rw [step_host_eq h, HostAgent.advance_script]
    exact fun inp hi => hn inp (List.mem_of_mem_tail hi)

/-- A run is over in `IDLE` only (R186). -/
theorem State.runOver_of_busy {s : State} (hp : s.ph ≠ .idle) : s.runOver = false := by
  simp [State.runOver, State.ready, hp]

/-- Settles O59: every step of the run keeps `HUNG` and the script free of resets. -/
theorem hungRunIsNeverOver : Obligations.HungRunIsNeverOver := by
  unfold Obligations.HungRunIsNeverOver
  intro n s t hp hn h
  obtain ⟨hhung, -⟩ := run_induction (P := fun u => u.ph = .hung ∧ NoReset u.host.script) (fun _ _ => step_hung) n
    ⟨hp, hn⟩ h
  exact ⟨hhung, State.runOver_of_busy (by simp [hhung])⟩

end Sys2Proof.Machine

/-! Words on the wire (30_encoding.md): which of them the model rejects (R5, R60; log 16). -/

namespace Sys2Proof

/-- A frame with C3 = 1 is rejected by name: C3 is the word's first bit (R5, R60; log 16). -/
theorem decodeWire_append_writeEnable {ctrl : Nibble} (h : ctrl.msb = true) (code : Code12) :
    decodeWire (ctrl ++ code) = .error .writeEnableSet := by
  have hmsb : (ctrl ++ code).msb = true := BitVec.msb_append.trans (by simpa using h)
  simp only [decodeWire, hmsb, if_true]

/-- Settles O3: C3 chooses between the frame of the two fields and the rejection. -/
theorem wireWordsDecodeOrAreRejected : Obligations.WireWordsDecodeOrAreRejected := fun _ code =>
  ⟨fun h => decodeWire_append h code, fun h => decodeWire_append_writeEnable h code⟩

end Sys2Proof
